-- ==== Sys2Proof/Word.lean ====
section
/-!
DEFINITION. The word types of spec/00_scope.md R11 and R92: bytes, the 16-, 32- and 64-bit integers
(signed or unsigned by how an operation reads them) and the 64-bit pattern of a binary64 number.
-/

namespace Sys2Proof

/-- `u8` (R11). -/
abbrev Byte := BitVec 8
/-- `u16`, read with `toNat` (R11). -/
abbrev U16 := BitVec 16
/-- `s16`, read with `toInt` (R11). -/
abbrev S16 := BitVec 16
/-- `u32`, read with `toNat` (R11). -/
abbrev U32 := BitVec 32
/-- `s32`, read with `toInt` (R11). -/
abbrev S32 := BitVec 32
/-- `s64`, read with `toInt` (R11). -/
abbrev S64 := BitVec 64
/-- A binary64 value as its IEEE 754 pattern: bit 63 sign, bits 62 to 52 biased exponent, bits 51 to 0
fraction (R92). -/
abbrev F64 := BitVec 64

end Sys2Proof
end

