-- ==== Sys2Proof/Config.lean ====
section
/-!
DEFINITION. What an implementation fixes (the parameters of spec/00_scope.md R8, their well-formedness R9,
the configuration string R4) and the free values the spec leaves open, which have no body.
-/

namespace Sys2Proof

/-- One completed bus transaction: the bytes shifted out and the bytes shifted in, in order (R35). -/
structure Xfer where
  mosi : List Byte
  miso : List Byte
  deriving DecidableEq, Repr

/-- `PRESSURE_INT_VARIANT`, R8: which integer pressure routine READ_P_INT uses. -/
inductive PressureVariant where
  | int32
  | int64
  deriving DecidableEq, Repr

/-- `OVERFLOW_MODE`, R8: what a signed checkpoint out of range does (R192). -/
inductive OverflowMode where
  | fault
  | wrap
  deriving DecidableEq, Repr

/-- `FLOAT_TFINE_KIND`, R8: what TFINE_F holds (R224). -/
inductive FloatTfineKind where
  | truncS32
  | binary64
  deriving DecidableEq, Repr

/-- The parameters of R8. ADDR_PHASE_LEN is a constant and no field: see `addrPhaseLen`. -/
structure Params where
  regId : Byte
  regCalib : Byte
  regCtrlMeas : Byte
  regStatus : Byte
  regData : Byte
  ctrlMeasValue : Byte
  statusMeasuringMask : Byte
  settleTicks : Nat
  pressureIntVariant : PressureVariant
  overflowMode : OverflowMode
  floatTfineKind : FloatTfineKind
  xbufLen : Nat
  deriving DecidableEq, Repr

/-- `ADDR_PHASE_LEN`, fixed at 1 (R8, R138). -/
def addrPhaseLen : Nat := 1

/-- FREE VALUE (DESIGN CHOICE, log entry 2): the byte SENSOR shifts in when `State.sensor` has no answer left. The oracle of R66
sees the bus history and the read, here the frame and the position in it; `draw` makes every exchange a fresh draw (I15). -/
opaque Config.sensorByte (draw : Nat) (hist : List Xfer) (mosi : List Byte) (index : Nat) : Byte

/-- FREE VALUE (DESIGN CHOICE, log entry 4): the tick count after a reset is a draw (R253, R272, I21). -/
opaque Config.ticksAfterReset (draw : Nat) : Nat

/-- A turn of an agent (R7): a micro-step of SEQ, a TICK step, a RESET step, the bus hardware starting or stopping to lift
holds (R135), or HOST issuing a code. -/
inductive Turn where
  | seq
  | tick
  | reset
  | bus (ready : Bool)
  | host (code : Byte)
  deriving DecidableEq, Repr, Inhabited

/-- FREE VALUE (DESIGN CHOICE, log entry 5): whose turn the `n`-th turn is that `State.agenda` does not name. Any endless
interleaving of the agents is a value of it (R253, R271, R281, I20). -/
opaque Config.freeTurn (n : Nat) : Turn

/-- FREE VALUE (DESIGN CHOICE, log entry 7): `CTRL_MEAS_VALUE` is OPEN, no default (R8, R105, I23). -/
opaque Config.ctrlMeasValue : Byte

/-- FREE VALUE (DESIGN CHOICE, log entry 7): `SETTLE_TICKS` is OPEN, no default (R8, I24). -/
opaque Config.settleTicks : Nat

/-- FREE VALUE (DEDUCED, log entry 10): the sign and payload bits of the NaN that an operation on these two operands gives.
R220 says IEEE 754 binary64 and no more. Not reachable from the block's inputs (R227). -/
opaque Config.nanBits (a b : F64) : BitVec 52

/-- The default parameters of R8 (PRESUMED, log entry 6); the two OPEN ones are free values. -/
def Params.default : Params where
  regId := 0xD0
  regCalib := 0x88
  regCtrlMeas := 0xF4
  regStatus := 0xF3
  regData := 0xF7
  ctrlMeasValue := Config.ctrlMeasValue
  statusMeasuringMask := 0x08
  settleTicks := Config.settleTicks
  pressureIntVariant := .int32
  overflowMode := .fault
  floatTfineKind := .truncS32
  xbufLen := 24

/-- A parameter record is well formed (R9). Clause (e) is `addrPhaseLen`'s. -/
def Params.wf (p : Params) : Bool :=
  p.regId.msb && p.regCalib.msb && p.regStatus.msb && p.regData.msb
    && decide (p.regCalib.toNat + 23 ≤ 0xFF) && decide (p.regData.toNat + 5 ≤ 0xFF)
    && decide (p.statusMeasuringMask ≠ 0)
    && decide (24 ≤ p.xbufLen)
    && decide (addrPhaseLen = 1)

/-- R105: the control byte selects forced mode and measures both channels. The block's rules do not depend on it. -/
def Params.selectsForcedMode (p : Params) : Bool :=
  (p.ctrlMeasValue.extractLsb' 0 2 == 1 || p.ctrlMeasValue.extractLsb' 0 2 == 2)
    && p.ctrlMeasValue.extractLsb' 5 3 != 0 && p.ctrlMeasValue.extractLsb' 2 3 != 0

/-- The configuration string of R4. -/
def Params.configString (p : Params) : String :=
  "BSIB-SPI-v7/"
    ++ (match p.pressureIntVariant with | .int32 => "INT32" | .int64 => "INT64") ++ "/"
    ++ (match p.overflowMode with | .fault => "FAULT" | .wrap => "WRAP") ++ "/"
    ++ (match p.floatTfineKind with | .truncS32 => "TRUNC_S32" | .binary64 => "BINARY64")

end Sys2Proof
end

