-- ==== Sys2Proof/Syntax.lean ====
section
/-!
DEFINITION. The operations of the block, one constructor per row of spec/opcode_table.json (R109), with the operands
each rule's "Operands" line gives it.
-/

namespace Sys2Proof

/-- The pressure coefficients `P1 : u16`, `P2..P9 : s16` (R23), operands of the pressure operations. -/
structure PressureCoeffs where
  p1 : U16
  p2 : S16
  p3 : S16
  p4 : S16
  p5 : S16
  p6 : S16
  p7 : S16
  p8 : S16
  p9 : S16
  deriving DecidableEq, Repr

/-- The operations of R109. -/
inductive Instr where
  /-- SPI_WRITE, R133: write one byte to the sensor register `commandByte[6:0]`. -/
  | spiWrite (commandByte dataByte : Byte)
  /-- SPI_READ, R137: read `count` registers from `addr`, the address SEQ puts in XBUF[0] before the read (R33). -/
  | spiRead (addr : Byte) (count : Nat)
  /-- INIT, host command 0x01, R151. -/
  | init
  /-- READ_T_INT, host command 0x10, R170. -/
  | readTInt
  /-- READ_P_INT, host command 0x11, R172. -/
  | readPInt
  /-- READ_T_FLT, host command 0x20, R171. -/
  | readTFlt
  /-- READ_P_FLT, host command 0x21, R173. -/
  | readPFlt
  /-- CAL_PARSE, internal, R154: the 24 bytes read from REG_CALIB. -/
  | calParse (b : List Byte)
  /-- SAMPLE, internal, R160. -/
  | sample
  /-- RAW_UNPACK, internal, R165: the 6 bytes of RAW. -/
  | rawUnpack (r : List Byte)
  /-- COMP_T_INT, internal, R197. -/
  | compTInt (adcT : S32) (t1 : U16) (t2 t3 : S16)
  /-- COMP_P_INT32, internal, R198. -/
  | compPInt32 (adcP tFine : S32) (p : PressureCoeffs)
  /-- COMP_P_INT64, internal, R199. -/
  | compPInt64 (adcP tFine : S32) (p : PressureCoeffs)
  /-- COMP_T_FLT, internal, R223. -/
  | compTFlt (adcT : S32) (t1 : U16) (t2 t3 : S16)
  /-- COMP_P_FLT, internal, R225: `tf` is TFINE_F as R224 reads it. -/
  | compPFlt (adcP : S32) (tf : F64) (p : PressureCoeffs)
  deriving DecidableEq, Repr

end Sys2Proof
end

