-- ==== Sys2Proof/Machine/State.lean ====
section
/-!
DEFINITION. The state of the block and of the agents it meets (spec/10_state.md, spec/60_exceptions.md R253), the reasons
a step can stop, and the state after reset (spec/70_reset_and_hazards.md R270, R272). Plain data throughout.
-/

namespace Sys2Proof.Machine

/-- `STATE`, R20. -/
inductive DriverState where
  | uninit
  | unsupported
  | ready
  | measuring
  deriving DecidableEq, Repr

/-- `KIND`, R21. -/
inductive Kind where
  | unknown
  | variantA
  | variantB
  deriving DecidableEq, Repr

/-- `CS`, R34. -/
inductive ChipSelect where
  | released
  | asserted
  deriving DecidableEq, Repr

/-- `PHASE`, R36. -/
inductive Phase where
  | idle
  | idRead
  | calRead
  | parse
  | trigger
  | poll
  | settle
  | burst
  | compute
  | done
  deriving DecidableEq, Repr

/-- The fault bits of R39. Bit 7 is reserved and has no constructor. -/
inductive FaultBit where
  | illegalCmd
  | reentrant
  | notReady
  | reinit
  | unpairedPressure
  | arithOverflow
  | arithDomain
  deriving DecidableEq, Repr

/-- `CAL`, the CalibrationSet of R23: `T1`, `P1` u16, the others s16. -/
structure CalibrationSet where
  t1 : U16
  t2 : S16
  t3 : S16
  p1 : U16
  p2 : S16
  p3 : S16
  p4 : S16
  p5 : S16
  p6 : S16
  p7 : S16
  p8 : S16
  p9 : S16
  deriving DecidableEq, Repr

/-- The all-zero set, CAL's reset value (R51). -/
def CalibrationSet.zero : CalibrationSet := ⟨0, 0, 0, 0, 0, 0, 0, 0, 0, 0, 0, 0⟩

/-- `RAW`, the six latched bytes of R26. -/
structure RawSample where
  r0 : Byte
  r1 : Byte
  r2 : Byte
  r3 : Byte
  r4 : Byte
  r5 : Byte
  deriving DecidableEq, Repr

/-- RAW's reset value (R51). -/
def RawSample.zero : RawSample := ⟨0, 0, 0, 0, 0, 0⟩

/-- `TFINE_F`, R29: an s32 (TRUNC_S32) or a binary64 (BINARY64) (DEDUCED, log entry 21). -/
inductive TfineF where
  | s32 (v : S32)
  | f64 (v : F64)
  deriving DecidableEq, Repr

/-- The bus holds of R135. -/
inductive BusHold where
  | settled
  | accepted
  | quiescent
  deriving DecidableEq, Repr

/-- The direction of a transaction; a read captures `count` bytes (R133, R137). -/
inductive FrameKind where
  | write
  | read (count : Nat)
  deriving DecidableEq, Repr

/-- A bus transaction in progress: bytes still to shift out, bytes shifted out, bytes shifted in, and the hold SEQ
is at (R133, R137). -/
structure Frame where
  kind : FrameKind
  todo : List Byte
  sent : List Byte
  got : List Byte
  hold : BusHold
  deriving DecidableEq, Repr

/-- Where the transport stands: no transaction, one in progress, or one just completed whose bytes SEQ has not used. -/
inductive BusState where
  | idle
  | active (f : Frame)
  | done
  deriving DecidableEq, Repr

/-- Status codes, R240. -/
inductive Status where
  | ok
  | eUnsupported
  deriving DecidableEq, Repr

/-- The value of a command's result (R92). -/
inductive Value where
  | s32 (v : S32)
  | u32 (v : U32)
  | f64 (v : F64)
  deriving DecidableEq, Repr

/-- What a command hands to HOST: `(status, value)`, the value absent for INIT (R92). -/
structure CmdResult where
  status : Status
  value : Option Value
  deriving DecidableEq, Repr

/-- What an internal operation hands to its caller (R154, R165, R197 to R199, R223, R225). -/
inductive OpResult where
  | cal (c : CalibrationSet)
  | raw (adcP adcT : S32)
  | tempInt (tFine t : S32)
  | pressInt (p : U32)
  | tempFlt (tFine : TfineF) (t : F64)
  | pressFlt (p : F64)
  deriving DecidableEq, Repr

/-- A move of an agent (R7), plain data: the interleaving of a run (DESIGN CHOICE, log entry 5). -/
inductive Move where
  /-- SEQ goes on with what it is doing, for up to `State.quantum` micro-steps (R15). -/
  | seq
  /-- HOST presents a command code (R150). -/
  | host (code : Byte)
  /-- A frame is handed to the transport outside a host command (DESIGN CHOICE, log entry 11). -/
  | spi (mosi : List Byte)
  /-- TICK steps (R253). -/
  | tick
  /-- RESET steps (R271). -/
  | reset
  /-- The bus hardware starts or stops lifting holds (R135, R141). -/
  | bus (ready : Bool)
  /-- From here on a turn of SEQ is up to `n` micro-steps. -/
  | quantum (n : Nat)
  deriving DecidableEq, Repr

/-- The state of the block, of the agents it meets, and its configuration. INVENTORY.md, heading State, has each
field's rule and reset value. -/
structure State where
  /-- The parameters, fixed for a run (R8, R272). -/
  cfg : Params
  /-- `STATE`, R20. -/
  state : DriverState
  /-- `KIND`, R21. -/
  kind : Kind
  /-- `BUSY`, R22. -/
  busy : Bool
  /-- `CAL`, R23. -/
  cal : CalibrationSet
  /-- `RAW`, R26. -/
  raw : RawSample
  /-- `TFINE_I`, R28. -/
  tfineI : S32
  /-- `TFINE_F`, R29. -/
  tfineF : TfineF
  /-- `RES_T_INT`, R30. -/
  resTInt : S32
  /-- `RES_P_INT`, R30. -/
  resPInt : U32
  /-- `RES_T_FLT`, R31. -/
  resTFlt : F64
  /-- `RES_P_FLT`, R31. -/
  resPFlt : F64
  /-- `PAIRED_I`, R32. -/
  pairedI : Bool
  /-- `PAIRED_F`, R32. -/
  pairedF : Bool
  /-- `XBUF`, R33: XBUF_LEN bytes. -/
  xbuf : List Byte
  /-- `CS`, R34. -/
  cs : ChipSelect
  /-- `HIST`, R35, oldest first. -/
  hist : List Xfer
  /-- `PHASE`, R36. -/
  phase : Phase
  /-- `CMD`, R37. -/
  cmd : Byte
  /-- `SETTLE_TARGET`, R38. -/
  settleTarget : Nat
  /-- `FAULTS`, R39. -/
  faults : BitVec 8
  /-- The transaction in progress, if any (R131 to R139) (DESIGN CHOICE, log entry 1). -/
  bus : BusState
  /-- `TICKS`, TICK's own count (R253), unbounded (DEDUCED, log entry 16). -/
  ticks : Nat
  /-- Whether the bus hardware lifts the hold SEQ meets (R135, R141) (DESIGN CHOICE, log entry 3). -/
  busReady : Bool
  /-- The bytes SENSOR shifts in next (R66, R132); when none is left, `Config.sensorByte`. -/
  sensor : List Byte
  /-- What HOST has received, oldest first (R92, R155) (DESIGN CHOICE, log entry 12). -/
  results : List CmdResult
  /-- The coming moves of the agents, SEQ's turns among them (R7); when none is left, `Config.freeTurn`. -/
  agenda : List Move
  /-- MODEL's own: how many micro-steps one turn of SEQ is at most (DESIGN CHOICE, log entry 5). -/
  quantum : Nat
  /-- MODEL's own: how many turns `Config.freeTurn` has given (DESIGN CHOICE, log entry 5). -/
  turns : Nat
  /-- MODEL's own: how many free values have been drawn (DESIGN CHOICE, log entry 2). -/
  draws : Nat
  /-- MODEL's own: what the last internal operation handed to its caller (DESIGN CHOICE, log entry 8). -/
  opResult : Option OpResult
  deriving DecidableEq, Repr

/-- Why the machine stops. -/
inductive Fault where
  /-- Raised by `exec` and by `step` on a state with a fault recorded, when the next move is SEQ's, HOST's, a frame's or RESET's: the block is quiescent and takes no step (R243, R271). Safe: the model stops where the spec says the
  block does nothing. -/
  | quiescent
  deriving DecidableEq, Repr

/-- Why the model has no next state. -/
inductive Refusal where
  /-- Raised by `exec`'s arm of an instruction without a meaning. Safe. -/
  | notModelled (mnemonic : String)
  /-- Raised by `step` on a configuration that fails R9: a model refuses it before any step. Safe. -/
  | illFormedConfig
  /-- Raised by SPI_READ for a count outside `1 .. XBUF_LEN`: a model refuses such a call (R137) (DEDUCED, log entry 18). Safe. -/
  | readCount
  /-- Raised by CAL_PARSE and RAW_UNPACK for a list that is not 24 or 6 bytes long: the operand is none of the operation's
  (R154, R165) (DEDUCED, log entry 18). Safe. -/
  | operandLength
  /-- Raised by an operation that would start a transaction while one is in progress (R139). No host command of a run
  meets it. Safe. -/
  | transactionInProgress
  /-- Raised by SAMPLE called outside its precondition `STATE = READY`, `BUSY = 1` (R160, R20) (DEDUCED, log entry 18). Safe. -/
  | samplePrecondition
  /-- Raised by `step` for a frame move whose bytes are no frame of R97 or R98. Safe. -/
  | undecodableFrame
  deriving DecidableEq, Repr

/-- What an instruction's meaning answers. -/
abbrev Answer := Host.Outcome State Fault Refusal

/-- TFINE_F's reset value by its kind (R51). -/
def TfineF.zero : FloatTfineKind → TfineF
  | .truncS32 => .s32 0
  | .binary64 => .f64 0

/-- The initial state of a run under configuration `p` (R272): the registers as R51 has them, FAULTS 0x00, HIST empty,
TICKS a draw, and nothing yet from the other agents; whose turn comes first is free. -/
def State.initial (p : Params) : State where
  cfg := p
  state := .uninit
  kind := .unknown
  busy := false
  cal := CalibrationSet.zero
  raw := RawSample.zero
  tfineI := 0
  tfineF := TfineF.zero p.floatTfineKind
  resTInt := 0
  resPInt := 0
  resTFlt := 0
  resPFlt := 0
  pairedI := false
  pairedF := false
  xbuf := List.replicate p.xbufLen 0
  cs := .released
  hist := []
  phase := .idle
  cmd := 0x00
  settleTarget := 0
  faults := 0x00
  bus := .idle
  ticks := Config.ticksAfterReset 0
  busReady := true
  sensor := []
  results := []
  agenda := []
  quantum := 4096
  turns := 0
  draws := 1
  opResult := none

/-- The machine right after reset, under the default parameters of R8 (R272). -/
def State.reset : State := State.initial Params.default

end Sys2Proof.Machine
end

