-- ==== Sys2Proof/Machine/Binary64.lean ====
section
/-!
DEFINITION. IEEE 754 binary64 arithmetic on bit patterns: addition, subtraction, multiplication and division, each rounded
once to nearest, ties to even (R13, R220), conversion from integers (R13) and `trunc_s32` (R221). Infinities, NaNs and
subnormals are as IEEE 754 has them (DEDUCED, log entry 10); R227 says that none is reached.
-/

namespace Sys2Proof.Machine

/-- Biased exponent, bits 62 to 52. -/
def f64Exp (x : F64) : Nat := x.toNat / 2 ^ 52 % 2 ^ 11

/-- Fraction, bits 51 to 0. -/
def f64Frac (x : F64) : Nat := x.toNat % 2 ^ 52

/-- The significand of a finite number as an integer, and the exponent of its last bit: the magnitude is
`f64Sig x * 2 ^ f64Pow x`. -/
def f64Sig (x : F64) : Nat := if f64Exp x = 0 then f64Frac x else 2 ^ 52 + f64Frac x

def f64Pow (x : F64) : Int := if f64Exp x = 0 then -1074 else (f64Exp x : Int) - 1075

def f64IsNaN (x : F64) : Bool := f64Exp x == 2047 && f64Frac x != 0

def f64IsInf (x : F64) : Bool := f64Exp x == 2047 && f64Frac x == 0

/-- `+0.0` or `-0.0`: the IEEE equality with zero (R226). -/
def f64IsZero (x : F64) : Bool := x.toNat % 2 ^ 63 == 0

/-- Sign bit and magnitude bits put together. -/
def f64Pack (neg : Bool) (magnitude : Nat) : F64 :=
  BitVec.ofNat 64 ((if neg then 2 ^ 63 else 0) + magnitude)

/-- The magnitude bits of infinity. -/
def f64InfBits : Nat := 2047 * 2 ^ 52

def f64Inf (neg : Bool) : F64 := f64Pack neg f64InfBits

def f64Zero (neg : Bool) : F64 := f64Pack neg 0

/-- The NaN of an operation on `a` and `b`: a quiet NaN whose sign and payload are free (DEDUCED, log entry 10). -/
def f64NaN (a b : F64) : F64 :=
  (Config.nanBits a b).extractLsb' 51 1 ++ (0x7FF#11 ++ (1#1 ++ (Config.nanBits a b).extractLsb' 0 51))

/-- `m / 2^k` rounded to nearest, ties to even; `sticky` says that the exact value lies strictly between `m` and `m + 1`. -/
def roundShift (m k : Nat) (sticky : Bool) : Nat :=
  if k = 0 then m
  else if 2 ^ (k - 1) < m % 2 ^ k ∨ (m % 2 ^ k = 2 ^ (k - 1) ∧ (sticky = true ∨ m / 2 ^ k % 2 = 1)) then m / 2 ^ k + 1
  else m / 2 ^ k

/-- The exponent of the last bit of the rounded result: 53 significant bits, but not below the subnormals' `-1074`. -/
def roundPow (m : Nat) (e : Int) : Int := max (e + (Nat.log2 m : Int) - 52) (-1074)

/-- The magnitude bits of `m * 2^e` (plus a little, if `sticky`) rounded once to nearest, ties to even (R220). A carry out
of the significand moves into the exponent; past the largest number the result is infinity. -/
def roundBits (m : Nat) (e : Int) (sticky : Bool) : Nat :=
  if m = 0 then 0
  else
    min f64InfBits
      ((roundPow m e + 1074).toNat * 2 ^ 52
        + roundShift (m * 2 ^ (e - roundPow m e).toNat) (roundPow m e - e).toNat sticky)

def f64Round (neg : Bool) (m : Nat) (e : Int) (sticky : Bool) : F64 := f64Pack neg (roundBits m e sticky)

/-- `f64(n)`, R13. -/
def f64OfInt (n : Int) : F64 := f64Round (decide (n < 0)) n.natAbs 0 false

def f64Neg (x : F64) : F64 := x ^^^ (1#64 <<< 63)

/-- The exact value of a finite number in units of `2 ^ e`, for `e <= f64Pow x`. -/
def f64Scaled (x : F64) (e : Int) : Int :=
  let m : Int := f64Sig x * 2 ^ (f64Pow x - e).toNat
  if x.msb then -m else m

/-- The sum of two finite numbers: exact, then rounded; an exact zero is `-0.0` only if both are negative. -/
def f64AddFinite (a b : F64) : F64 :=
  let e := min (f64Pow a) (f64Pow b)
  let sum := f64Scaled a e + f64Scaled b e
  if sum = 0 then f64Zero (a.msb && b.msb)
  else f64Round (decide (sum < 0)) sum.natAbs e false

/-- `a ⊕ b`, R13, R220. -/
def f64Add (a b : F64) : F64 :=
  if f64IsNaN a || f64IsNaN b then f64NaN a b
  else if f64IsInf a then
    if f64IsInf b && a.msb != b.msb then f64NaN a b else a
  else if f64IsInf b then b
  else f64AddFinite a b

/-- `a ⊖ b`, R13, R220. -/
def f64Sub (a b : F64) : F64 := f64Add a (f64Neg b)

/-- `a ⊗ b`, R13, R220. -/
def f64Mul (a b : F64) : F64 :=
  if f64IsNaN a || f64IsNaN b then f64NaN a b
  else if f64IsInf a || f64IsInf b then
    if f64IsZero a || f64IsZero b then f64NaN a b else f64Inf (a.msb != b.msb)
  else f64Round (a.msb != b.msb) (f64Sig a * f64Sig b) (f64Pow a + f64Pow b) false

/-- The quotient of two finite numbers, the divisor not zero: 120 extra bits of quotient, and whether a remainder is
left, are enough to round once. -/
def f64DivFinite (a b : F64) : F64 :=
  f64Round (a.msb != b.msb) (f64Sig a * 2 ^ 120 / f64Sig b) (f64Pow a - f64Pow b - 120)
    (f64Sig a * 2 ^ 120 % f64Sig b != 0)

/-- `a ⊘ b`, R13, R220. -/
def f64Div (a b : F64) : F64 :=
  if f64IsNaN a || f64IsNaN b then f64NaN a b
  else if f64IsInf a then
    if f64IsInf b then f64NaN a b else f64Inf (a.msb != b.msb)
  else if f64IsInf b then f64Zero (a.msb != b.msb)
  else if f64IsZero b then
    if f64IsZero a then f64NaN a b else f64Inf (a.msb != b.msb)
  else f64DivFinite a b

/-- A finite number rounded toward zero, as an integer. -/
def f64TruncInt (x : F64) : Int :=
  let m : Nat := f64Sig x * 2 ^ (f64Pow x).toNat / 2 ^ (-f64Pow x).toNat
  if x.msb then -(m : Int) else m

/-- `trunc_s32(x)`, R221: toward zero if that integer is an s32, else (a NaN and an infinity too) ARITH_DOMAIN. -/
def truncS32 (x : F64) : Except FaultBit S32 :=
  if f64Exp x = 2047 then .error .arithDomain
  else if -2 ^ 31 ≤ f64TruncInt x ∧ f64TruncInt x < 2 ^ 31 then .ok (BitVec.ofInt 32 (f64TruncInt x))
  else .error .arithDomain

end Sys2Proof.Machine
end

