-- ==== Sys2Proof/WellFormed.lean ====
section
/-!
DEFINITION. Which instructions are well formed: the operand ranges of the rules' "Operands" lines.
-/

namespace Sys2Proof

/-- `adc_T`, `adc_P` lie in `[0, 2^20)` (R191). -/
def adcInRange (a : S32) : Bool := decide (a.toNat < 2 ^ 20)

/-- The operand ranges: a read address has bit 7 = 1 (R96, R107) and a read moves at least one byte (R67, R137),
CAL_PARSE takes 24 bytes (R154), RAW_UNPACK 6 (R165), raw values are 20 bits wide (R191). The upper bound of a
read's count is XBUF_LEN, a parameter: `Instr.fits`. What the operations do with other operands: (DEDUCED, log entry 19). -/
def Instr.wf : Instr → Bool
  | .spiWrite _ _ => true
  | .spiRead addr count => addr.msb && decide (1 ≤ count)
  | .init | .readTInt | .readPInt | .readTFlt | .readPFlt => true
  | .calParse b => decide (b.length = 24)
  | .sample => true
  | .rawUnpack r => decide (r.length = 6)
  | .compTInt adcT _ _ _ => adcInRange adcT
  | .compPInt32 adcP _ _ => adcInRange adcP
  | .compPInt64 adcP _ _ => adcInRange adcP
  | .compTFlt adcT _ _ _ => adcInRange adcT
  | .compPFlt adcP _ _ => adcInRange adcP

/-- The part of well-formedness that depends on the configuration: `count <= XBUF_LEN` (R137). -/
def Instr.fits (xbufLen : Nat) : Instr → Bool
  | .spiRead _ count => decide (count ≤ xbufLen)
  | _ => true

end Sys2Proof
end

