-- ==== Sys2Proof/Decode.lean ====
section
/-!
DEFINITION. Decoding and encoding (spec/30_encoding.md): the host command byte HCMD (R91 to R95), the SPI frames SPIW
and SPIR (R96 to R99), the host program text (R108), and the harness that reads a row of spec/opcode_table.json.
The internal operations have no encoding (R109).
-/

namespace Sys2Proof

/-- Why bytes are no instruction. -/
inductive DecodeError where
  /-- A host command code outside R91 (R93, R95). -/
  | illegalCommand (code : Byte)
  /-- A transaction has at least its command byte (R96). -/
  | emptyFrame
  /-- A write frame is always 2 bytes (R99). -/
  | writeFrameLength
  /-- A read frame has at least one padding byte: `count >= 1` (R137). -/
  | readFrameLength
  /-- The padding bytes of a read frame are 0x00 (R98). -/
  | readPadding
  deriving DecidableEq, Repr

/-- What an encoded instruction is on: the host command port (one byte) or the SPI bus (a frame, delimited by
chip-select, R99). -/
inductive Wire where
  | command (code : Byte)
  | frame (mosi : List Byte)
  deriving DecidableEq, Repr

/-- The total decoder of host command codes, R93: the row of R91 whose code equals `c`, else illegal. -/
def decodeHost (c : Byte) : Except DecodeError Instr :=
  if c = 0x01 then .ok .init
  else if c = 0x10 then .ok .readTInt
  else if c = 0x11 then .ok .readPInt
  else if c = 0x20 then .ok .readTFlt
  else if c = 0x21 then .ok .readPFlt
  else .error (.illegalCommand c)

/-- The total decoder of SPI frames: bit 7 of the first byte tells the direction, the frame's end its length
(R96 to R99). -/
def decodeFrame : List Byte → Except DecodeError Instr
  | [] => .error .emptyFrame
  | head :: rest =>
    if head.msb then
      if rest = [] then .error .readFrameLength
      else if rest.all (· == 0) then .ok (.spiRead head rest.length)
      else .error .readPadding
    else
      match rest with
      | [d] => .ok (.spiWrite head d)
      | _ => .error .writeFrameLength

def decodeWire : Wire → Except DecodeError Instr
  | .command c => decodeHost c
  | .frame mosi => decodeFrame mosi

/-- The byte SPI_WRITE shifts out first: bit 7 cleared (R97, R133). -/
def writeHeader (commandByte : Byte) : Byte := commandByte &&& 0x7F

/-- MOSI of a write frame (R97). -/
def writeFrame (commandByte dataByte : Byte) : List Byte := [writeHeader commandByte, dataByte]

/-- MOSI of a read frame (R98): the address unchanged, then `count` zero bytes. -/
def readFrame (addr : Byte) (count : Nat) : List Byte := addr :: List.replicate count 0

/-- The encoder, from the tables of R91, R97 and R98. An internal operation has none (R109). -/
def encode : Instr → Option Wire
  | .spiWrite c d => some (.frame (writeFrame c d))
  | .spiRead a n => some (.frame (readFrame a n))
  | .init => some (.command 0x01)
  | .readTInt => some (.command 0x10)
  | .readPInt => some (.command 0x11)
  | .readTFlt => some (.command 0x20)
  | .readPFlt => some (.command 0x21)
  | .calParse _ => none
  | .sample => none
  | .rawUnpack _ => none
  | .compTInt _ _ _ _ => none
  | .compPInt32 _ _ _ => none
  | .compPInt64 _ _ _ => none
  | .compTFlt _ _ _ _ => none
  | .compPFlt _ _ _ => none

/-- The instruction as the wire carries it: a write's command byte has lost bit 7 (R133, corner cases). -/
def Instr.onWire : Instr → Instr
  | .spiWrite c d => .spiWrite (writeHeader c) d
  | i => i

/-! ## Rows of spec/opcode_table.json -/

/-- The `n` bytes of `w`, the first the least significant. -/
def wordBytes : Nat → Nat → List Byte
  | 0, _ => []
  | n + 1, w => BitVec.ofNat 8 w :: wordBytes n (w / 256)

/-- How a table row's bits lie on the wire (DESIGN CHOICE, log entry 11). One byte: a host command if it is one of R91's codes, else the
first byte of an SPI frame with one operand byte of zeros. More bytes: an SPI frame. -/
def tableWire (nbits w : Nat) : Wire :=
  if nbits ≤ 8 then
    match decodeHost (BitVec.ofNat 8 w) with
    | .ok _ => .command (BitVec.ofNat 8 w)
    | .error _ => .frame [BitVec.ofNat 8 w, 0]
  else .frame (wordBytes ((nbits + 7) / 8) w)

/-- The instruction the decoder reads from a table row's bits. -/
def decodeTableWord (nbits w : Nat) : Option Instr :=
  match decodeWire (tableWire nbits w) with
  | .ok i => some i
  | .error _ => none

/-! ## Host program text, R108 -/

/-- A program line that is no mnemonic and no pseudo-instruction is refused (R108, I27). -/
inductive AsmError where
  | unknownLine (line : List Char)
  deriving DecidableEq, Repr

/-- The mnemonics of R91 and the two pseudo-instructions of R108, each with what it expands to. -/
def mnemonicTable : List (List Char × List Instr) :=
  [ (['I', 'N', 'I', 'T'], [.init]),
    (['R', 'E', 'A', 'D', '_', 'T', '_', 'I', 'N', 'T'], [.readTInt]),
    (['R', 'E', 'A', 'D', '_', 'P', '_', 'I', 'N', 'T'], [.readPInt]),
    (['R', 'E', 'A', 'D', '_', 'T', '_', 'F', 'L', 'T'], [.readTFlt]),
    (['R', 'E', 'A', 'D', '_', 'P', '_', 'F', 'L', 'T'], [.readPFlt]),
    (['R', 'E', 'A', 'D', '_', 'I', 'N', 'T'], [.readTInt, .readPInt]),
    (['R', 'E', 'A', 'D', '_', 'F', 'L', 'T'], [.readTFlt, .readPFlt]) ]

def isBlank (c : Char) : Bool := c == ' ' || c == '\t' || c == '\r'

/-- A line without its comment and the blanks around it (PRESUMED, log entry 15). -/
def asmStrip (line : List Char) : List Char :=
  (((line.takeWhile (· != ';')).dropWhile isBlank).reverse.dropWhile isBlank).reverse

def asmLine (line : List Char) : Except AsmError (List Instr) :=
  if asmStrip line = [] then .ok []
  else
    match mnemonicTable.lookup (asmStrip line) with
    | some is => .ok is
    | none => .error (.unknownLine (asmStrip line))

/-- The lines of a text, split at line feeds. -/
def asmLines : List Char → List (List Char)
  | [] => [[]]
  | c :: rest =>
    if c = '\n' then [] :: asmLines rest
    else
      match asmLines rest with
      | [] => [[c]]
      | l :: ls => (c :: l) :: ls

def asmAll : List (List Char) → Except AsmError (List Instr)
  | [] => .ok []
  | l :: ls =>
    match asmLine l with
    | .error e => .error e
    | .ok is =>
      match asmAll ls with
      | .error e => .error e
      | .ok js => .ok (is ++ js)

/-- The host commands a program text stands for (R108). -/
def assemble (text : List Char) : Except AsmError (List Instr) := asmAll (asmLines text)

/-- The command codes of a list of host commands, as HOST presents them. -/
def commandCodes : List Instr → List Byte
  | [] => []
  | i :: is =>
    match encode i with
    | some (.command c) => c :: commandCodes is
    | _ => commandCodes is

end Sys2Proof
end

