-- ==== Sys2Proof/Machine/Ops.lean ====
section
/-!
DEFINITION. The named operations over the state: raising a fault (R243), the reset (R270), the bus byte by byte
(R131 to R139), the transfer buffer (R33), handing a result to HOST (R155), and taking the agents' moves (R7).
-/

namespace Sys2Proof.Machine

/-! ## Faults -/

/-- The bit numbers of R39. -/
def faultIndex : FaultBit → Nat
  | .illegalCmd => 0
  | .reentrant => 1
  | .notReady => 2
  | .reinit => 3
  | .unpairedPressure => 4
  | .arithOverflow => 5
  | .arithDomain => 6

def faultMask (f : FaultBit) : BitVec 8 := 1#8 <<< faultIndex f

/-- `raise Fault(F)`, R243: the block's ONE way of taking an exception. It sets the fault's bit; BUSY, STATE, PHASE and every
other register keep their values, no result is handed over, and nothing runs afterwards (`stepWith`, `seqRun`). There is
no return from it (R256). -/
def State.raise (f : FaultBit) (s : State) : State := { s with faults := s.faults ||| faultMask f }

/-- A fault is recorded: the block is quiescent (R243). -/
def State.quiescent (s : State) : Bool := s.faults != 0

/-! ## Reset -/

/-- A RESET step, R270: every block register takes its reset value, the transaction in progress ends unrecorded, HIST and
FAULTS keep their values, TICKS is drawn anew (R253). The other agents keep what is theirs (DEDUCED, log entry 13). -/
def State.takeReset (s : State) : State :=
  { State.initial s.cfg with
    hist := s.hist
    faults := s.faults
    ticks := Config.ticksAfterReset s.draws
    busReady := s.busReady
    sensor := s.sensor
    results := s.results
    agenda := s.agenda
    quantum := s.quantum
    turns := s.turns
    draws := s.draws + 1 }

/-! ## The bus -/

/-- The byte SENSOR shifts in at this exchange (R66, R132). -/
def State.misoByte (f : Frame) (s : State) : Byte :=
  match s.sensor with
  | b :: _ => b
  | [] => Config.sensorByte s.draws s.hist (f.sent ++ f.todo) f.sent.length

/-- Begin a transaction: `CS <- ASSERTED`, and SEQ is at the hold BUS_SETTLED (R131, R133, R137). -/
def State.beginFrame (kind : FrameKind) (mosi : List Byte) (s : State) : State :=
  { s with cs := .asserted, bus := .active ⟨kind, mosi, [], [], .settled⟩ }

/-- Begin SPI_WRITE (R133): bit 7 of the command byte is cleared on the wire. -/
def State.beginWrite (commandByte dataByte : Byte) (s : State) : State :=
  s.beginFrame .write (writeFrame commandByte dataByte)

/-- `XBUF[0] <- addr` (R33). -/
def setHead (addr : Byte) : List Byte → List Byte
  | [] => []
  | _ :: rest => addr :: rest

/-- Put the address in XBUF[0] and begin SPI_READ (R33, R137); the address is sent unchanged (R136). -/
def State.beginRead (addr : Byte) (count : Nat) (s : State) : State :=
  { s with xbuf := setHead addr s.xbuf }.beginFrame (.read count) (readFrame addr count)

/-- `xchg(m)`, R132: shift `m` out and one byte in; SEQ is then at the hold BYTE_ACCEPTED. -/
def State.shiftByte (f : Frame) (m : Byte) (rest : List Byte) (s : State) : State :=
  { s with
    bus := .active
      { f with todo := rest, sent := f.sent ++ [m], got := f.got ++ [s.misoByte f], hold := .accepted }
    sensor := s.sensor.tail
    draws := s.draws + 1 }

/-- What a read leaves in the buffer (R33, R138): the `ADDR_PHASE_LEN` bytes of the address phase are discarded, the next
`count` go to the head, the bytes from `count` on keep their values. -/
def captured (count : Nat) (got xbuf : List Byte) : List Byte :=
  (got.drop addrPhaseLen).take count ++ xbuf.drop count

/-- End a transaction: `CS <- RELEASED`, a read captures its bytes, HIST records it (R133, R137). A write's incoming bytes
reach HIST only (R134). -/
def State.finishFrame (f : Frame) (s : State) : State :=
  { s with
    cs := .released
    bus := .done
    xbuf := match f.kind with
      | .write => s.xbuf
      | .read count => captured count f.got s.xbuf
    hist := s.hist ++ [⟨f.sent, f.got⟩] }

/-- One micro-step inside a transaction; none while the bus hardware does not lift the hold (R135, R141). -/
def busMicro (f : Frame) (s : State) : Option State :=
  if s.busReady then
    match f.hold, f.todo with
    | .quiescent, _ => some (s.finishFrame f)
    | _, [] => some { s with bus := .active { f with hold := .quiescent } }
    | _, m :: rest => some (s.shiftByte f m rest)
  else none

/-- A transaction is in progress (R139). -/
def State.inTransaction (s : State) : Bool :=
  match s.bus with
  | .active _ => true
  | _ => false

/-- The byte at index `i` of XBUF. -/
def State.xbufAt (i : Nat) (s : State) : Byte := s.xbuf.getD i 0

/-! ## SEQ's registers -/

/-- A command is admitted, R150: CMD and BUSY, no transaction. -/
def State.admitted (code : Byte) (s : State) : State := { s with cmd := code, busy := true, bus := .idle }

/-- `PHASE <- p` (R36). -/
def State.atPhase (p : Phase) (s : State) : State := { s with phase := p }

/-- `PHASE <- p`, the completed transaction being used. -/
def State.goTo (p : Phase) (s : State) : State := { s with phase := p, bus := .idle }

/-! ## Results -/

/-- `return (status, value)`: the result goes to HOST (R155). -/
def State.handOver (r : CmdResult) (s : State) : State := { s with results := s.results ++ [r] }

/-- Only a block without a recorded fault takes a step (R243, R271). -/
def whenLive (a : Answer) (s : State) : Answer :=
  if s.quiescent then .fault .quiescent else a

/-- The end of an internal operation called on its own: its result to the caller, or its fault (DESIGN CHOICE, log entry 8). -/
def finishOp (r : Except FaultBit OpResult) (s : State) : Answer :=
  whenLive
    (match r with
      | .ok v => .next { s with opResult := some v }
      | .error f => .next (s.raise f)) s

/-! ## The other agents' moves -/

/-- A TICK step, R253. -/
def State.tick (s : State) : State := { s with ticks := s.ticks + 1 }

/-- While SEQ waits, the moves of TICK and of the bus hardware at the head of the agenda are taken (R163, R281). -/
def envMove (s : State) : Option State :=
  match s.agenda with
  | .tick :: rest => some { s with agenda := rest }.tick
  | .bus b :: rest => some { s with agenda := rest, busReady := b }
  | _ => none

/-- The move a turn is. -/
def turnMove : Turn → Move
  | .seq => .seq
  | .tick => .tick
  | .reset => .reset
  | .bus b => .bus b
  | .host c => .host c

/-- The next move: the agenda's first, or, where it is empty, the next turn of the schedule `sched` (DESIGN CHOICE, log entry 5). -/
def State.nextMove (sched : Nat → Turn) (s : State) : Move :=
  match s.agenda with
  | m :: _ => m
  | [] => turnMove (sched s.turns)

/-- The state with that move taken off the agenda, or the turn counted. -/
def State.moveTaken (s : State) : State :=
  { s with agenda := s.agenda.tail, turns := if s.agenda = [] then s.turns + 1 else s.turns }

/-- One move of an agent; `run` gives a decoded instruction its meaning, `goOn` is SEQ going on, `s` is the state with the move
taken. A code outside R91 raises ILLEGAL_CMD before any other check (R150, R245). A frame of its own is served only between
host commands (DESIGN CHOICE, log entry 11). -/
def takeMove (run : Instr → State → Answer) (goOn : State → State) (m : Move) (s : State) : Answer :=
  match m with
  | .seq => whenLive (.next (goOn s)) s
  | .tick => .next s.tick
  | .bus b => .next { s with busReady := b }
  | .quantum n => .next { s with quantum := n }
  | .reset => whenLive (.next s.takeReset) s
  | .host c =>
    whenLive
      (match decodeHost c with
        | .ok i => run i s
        | .error _ => .next (s.raise .illegalCmd)) s
  | .spi mosi =>
    whenLive
      (match decodeFrame mosi with
        | .ok i => if s.busy then .refused .transactionInProgress else run i s
        | .error _ => .refused .undecodableFrame) s

/-- One step of the machine: refuse an ill-formed configuration (R9), else take the next move. Between any two turns of SEQ any
other agent may move (R139, R253, R271). -/
def stepWith (sched : Nat → Turn) (run : Instr → State → Answer) (goOn : State → State) (s : State) : Answer :=
  if s.cfg.wf then takeMove run goOn (s.nextMove sched) s.moveTaken else .refused .illFormedConfig

/-- The move that brings an instruction to the block. -/
def wireMove : Wire → Move
  | .command c => .host c
  | .frame mosi => .spi mosi

/-- `s` with the instruction of a table row as the next move (DESIGN CHOICE, log entry 14). -/
def State.placeWord (s : State) (nbits w : Nat) : State :=
  { s with agenda := wireMove (tableWire nbits w) :: s.agenda }

/-- HOST's program: its codes as coming moves, each taken after the one before it (R108, D32). -/
def State.loadProgram (codes : List Byte) (s : State) : State :=
  { s with agenda := s.agenda ++ codes.map .host }

end Sys2Proof.Machine
end

