-- ==== Sys2Proof/Machine/CompFloat.lean ====
section
/-!
DEFINITION. FPC, the floating-point converter (spec/43_compensation_float.md): COMP_T_FLT and COMP_P_FLT, one binary64
operation per step, grouped as R223 and R225 write them (R222).
-/

namespace Sys2Proof.Machine

/-- The sum `s` of R223; `d` is computed twice in the published code, with one value (R222). -/
def tFltSum (adcT : S32) (t1 : U16) (t2 t3 : S16) : F64 :=
  let x1 := f64Div (f64OfInt adcT.toInt) (f64OfInt 16384)
  let x2 := f64Div (f64OfInt t1.toNat) (f64OfInt 1024)
  let var1 := f64Mul (f64Sub x1 x2) (f64OfInt t2.toInt)
  let y1 := f64Div (f64OfInt adcT.toInt) (f64OfInt 131072)
  let y2 := f64Div (f64OfInt t1.toNat) (f64OfInt 8192)
  let d := f64Sub y1 y2
  let var2 := f64Mul (f64Mul d d) (f64OfInt t3.toInt)
  f64Add var1 var2

/-- The fine temperature of the sum, by `FLOAT_TFINE_KIND` (R224). -/
def tFineOfSum (kind : FloatTfineKind) (sum : F64) : Except FaultBit TfineF :=
  match kind with
  | .truncS32 =>
    match truncS32 sum with
    | .ok v => .ok (.s32 v)
    | .error f => .error f
  | .binary64 => .ok (.f64 sum)

/-- COMP_T_FLT, R223: T comes from the unrounded sum in both kinds. -/
def compTFlt (kind : FloatTfineKind) (adcT : S32) (t1 : U16) (t2 t3 : S16) : Except FaultBit (TfineF × F64) :=
  match tFineOfSum kind (tFltSum adcT t1 t2 t3) with
  | .ok tf => .ok (tf, f64Div (tFltSum adcT t1 t2 t3) (f64OfInt 5120))
  | .error f => .error f

/-- TFINE_F as COMP_P_FLT reads it (R224). -/
def tfineFValue : TfineF → F64
  | .s32 v => f64OfInt v.toInt
  | .f64 v => v

/-- `(tf ⊘ 2.0) ⊖ 64000.0`, the first line of R225. -/
def pFltVar1 (tf : F64) : F64 := f64Sub (f64Div tf (f64OfInt 2)) (f64OfInt 64000)

/-- `var2` of R225, its first three lines. -/
def pFltVar2 (tf : F64) (c : PressureCoeffs) : F64 :=
  let var1 := pFltVar1 tf
  let var2 := f64Div (f64Mul (f64Mul var1 var1) (f64OfInt c.p6.toInt)) (f64OfInt 32768)
  let var2' := f64Add var2 (f64Mul (f64Mul var1 (f64OfInt c.p5.toInt)) (f64OfInt 2))
  f64Add (f64Div var2' (f64OfInt 4)) (f64Mul (f64OfInt c.p4.toInt) (f64OfInt 65536))

/-- The denominator `var1` of R225, tested by the zero guard (R226). -/
def pFltDenominator (tf : F64) (c : PressureCoeffs) : F64 :=
  let var1 := pFltVar1 tf
  let a := f64Div (f64Mul (f64Mul (f64OfInt c.p3.toInt) var1) var1) (f64OfInt 524288)
  let var1' := f64Div (f64Add a (f64Mul (f64OfInt c.p2.toInt) var1)) (f64OfInt 524288)
  f64Mul (f64Add (f64OfInt 1) (f64Div var1' (f64OfInt 32768))) (f64OfInt c.p1.toNat)

/-- The lines of R225 after the zero guard. -/
def pFltTail (adcP : S32) (var1 var2 : F64) (c : PressureCoeffs) : F64 :=
  let p := f64Sub (f64OfInt 1048576) (f64OfInt adcP.toInt)
  let p' := f64Div (f64Mul (f64Sub p (f64Div var2 (f64OfInt 4096))) (f64OfInt 6250)) var1
  let var1' := f64Div (f64Mul (f64Mul (f64OfInt c.p9.toInt) p') p') (f64OfInt 2147483648)
  let var2' := f64Div (f64Mul p' (f64OfInt c.p8.toInt)) (f64OfInt 32768)
  f64Add p' (f64Div (f64Add (f64Add var1' var2') (f64OfInt c.p7.toInt)) (f64OfInt 16))

/-- COMP_P_FLT, R225: a zero denominator of either sign gives +0.0 (R226). -/
def compPFlt (adcP : S32) (tf : F64) (c : PressureCoeffs) : F64 :=
  if f64IsZero (pFltDenominator tf c) then f64Zero false
  else pFltTail adcP (pFltDenominator tf c) (pFltVar2 tf c) c

/-! ## The operations as instructions -/

/-- COMP_T_FLT, R223: its results go to the caller. -/
def execCompTFlt (adcT : S32) (t1 : U16) (t2 t3 : S16) (s : State) : Answer :=
  finishOp ((compTFlt s.cfg.floatTfineKind adcT t1 t2 t3).map fun r => .tempFlt r.1 r.2) s

/-- COMP_P_FLT, R225: no fault (R226). -/
def execCompPFlt (adcP : S32) (tf : F64) (p : PressureCoeffs) (s : State) : Answer :=
  finishOp (.ok (.pressFlt (compPFlt adcP tf p))) s

end Sys2Proof.Machine
end

