-- ==== Sys2Proof/Machine/Operands.lean ====
section
/-!
DEFINITION. The operand forms: little-endian coefficients (R101), the 20-bit raw values (R103), the views of CAL and RAW
the operations take, and the integer operators with their overflow checkpoints (spec/00_scope.md R12, R192 to R196).
-/

namespace Sys2Proof.Machine

/-! ## Byte blocks -/

/-- `w(k) = b[2k] + 256 * b[2k+1]`, the 16-bit little-endian word at offset `2k` (R101, R154). -/
def word16 (b : List Byte) (k : Nat) : BitVec 16 := b.getD (2 * k + 1) 0 ++ b.getD (2 * k) 0

/-- CAL_PARSE, R154: the twelve fields in the order of R100. A field's signedness is how it is read (R23). -/
def parseCal (b : List Byte) : CalibrationSet where
  t1 := word16 b 0
  t2 := word16 b 1
  t3 := word16 b 2
  p1 := word16 b 3
  p2 := word16 b 4
  p3 := word16 b 5
  p4 := word16 b 6
  p5 := word16 b 7
  p6 := word16 b 8
  p7 := word16 b 9
  p8 := word16 b 10
  p9 := word16 b 11

/-- `{ msb[7:0], lsb[7:0], xlsb[7:4] }` widened to 32 bits (R103, R165). -/
def adc20 (msb lsb xlsb : Byte) : S32 := (msb ++ lsb ++ xlsb.extractLsb' 4 4 : BitVec 20).zeroExtend 32

/-- `adc_P`, the first of the two raw values (R102, R103). -/
def RawSample.adcP (r : RawSample) : S32 := adc20 r.r0 r.r1 r.r2

/-- `adc_T`, the second (R102, R103). -/
def RawSample.adcT (r : RawSample) : S32 := adc20 r.r3 r.r4 r.r5

/-- The six bytes at the head of a list, RAW's order (R164). -/
def rawOfBytes (b : List Byte) : RawSample :=
  ⟨b.getD 0 0, b.getD 1 0, b.getD 2 0, b.getD 3 0, b.getD 4 0, b.getD 5 0⟩

/-- `P1..P9` of CAL, the operands of the pressure operations (R172, R173). -/
def CalibrationSet.pressure (c : CalibrationSet) : PressureCoeffs :=
  ⟨c.p1, c.p2, c.p3, c.p4, c.p5, c.p6, c.p7, c.p8, c.p9⟩

/-! ## Integer operators, on mathematical integers -/

/-- `asr(a, k) = floor(a / 2^k)`, negative values included (R12, R193). -/
def asr (a : Int) (k : Nat) : Int := a / 2 ^ k

/-- `lsr(a, k) = floor(a / 2^k)` of an unsigned value (R12). -/
def lsr (a k : Nat) : Nat := a / 2 ^ k

/-- `shl(a, k) = a * 2^k` (R12, R194). -/
def shl (a : Int) (k : Nat) : Int := a * 2 ^ k

/-- `sdiv`: the quotient truncated toward zero (R12, R196). -/
def sdiv (a b : Int) : Int := a.tdiv b

/-- `U32(v) = v mod 2^32`; never faults (R195). -/
def u32 (v : Int) : Nat := (v % 2 ^ 32).toNat

/-- `mod_s_32(v)`: the two's-complement reading; never faults (R11, R195). -/
def modS32 (v : Int) : Int := v.bmod (2 ^ 32)

/-- `mod_s_64(v)` (R11). -/
def modS64 (v : Int) : Int := v.bmod (2 ^ 64)

/-- `v` is in range for `s32` (R11). -/
def inS32 (v : Int) : Bool := decide (-2 ^ 31 ≤ v ∧ v < 2 ^ 31)

/-- `v` is in range for `s64` (R11). -/
def inS64 (v : Int) : Bool := decide (-2 ^ 63 ≤ v ∧ v < 2 ^ 63)

/-- A checkpoint, R192: a value in range is unchanged in both modes; out of range, FAULT raises ARITH_OVERFLOW and WRAP
yields the wrapped value. -/
def checkpoint (mode : OverflowMode) (inRange : Bool) (wrapped v : Int) : Except FaultBit Int :=
  match mode with
  | .fault => if inRange then .ok v else .error .arithOverflow
  | .wrap => .ok (if inRange then v else wrapped)

/-- `S32(e)`, R192. -/
def ckS32 (mode : OverflowMode) (v : Int) : Except FaultBit Int := checkpoint mode (inS32 v) (modS32 v) v

/-- `S64(e)`, R192. -/
def ckS64 (mode : OverflowMode) (v : Int) : Except FaultBit Int := checkpoint mode (inS64 v) (modS64 v) v

end Sys2Proof.Machine
end

