-- ==== Sys2Proof/Machine/CompInt.lean ====
section
/-!
DEFINITION. FXP, the fixed-point compensation pipeline (spec/42_compensation_int.md): COMP_T_INT, COMP_P_INT32 and
COMP_P_INT64, line by line as R197, R198 and R199 write them. A local assigned twice is primed here.
-/

namespace Sys2Proof.Machine

/-- COMP_T_INT on mathematical integers, R197: `(t_fine, T)`. -/
def compTIntZ (mode : OverflowMode) (adcT t1 t2 t3 : Int) : Except FaultBit (Int × Int) := do
  let a1 ← ckS32 mode (shl t1 1)
  let v1a ← ckS32 mode (asr adcT 3 - a1)
  let v1b ← ckS32 mode (v1a * t2)
  let var1 := asr v1b 11
  let v2a ← ckS32 mode (asr adcT 4 - t1)
  let v2b ← ckS32 mode (v2a * v2a)
  let v2c := asr v2b 12
  let v2d ← ckS32 mode (v2c * t3)
  let var2 := asr v2d 14
  let tFine ← ckS32 mode (var1 + var2)
  let u ← ckS32 mode (tFine * 5)
  let w ← ckS32 mode (u + 128)
  return (tFine, asr w 8)

/-- COMP_T_INT, R197. -/
def compTInt (mode : OverflowMode) (adcT : S32) (t1 : U16) (t2 t3 : S16) : Except FaultBit (S32 × S32) :=
  match compTIntZ mode adcT.toInt t1.toNat t2.toInt t3.toInt with
  | .ok (tFine, t) => .ok (BitVec.ofInt 32 tFine, BitVec.ofInt 32 t)
  | .error f => .error f

/-- The lines of R198 up to the zero guard: the denominator `var1`, and `var2`. -/
def pInt32Head (mode : OverflowMode) (tFine : Int) (c : PressureCoeffs) : Except FaultBit (Int × Int) := do
  let var1 ← ckS32 mode (asr tFine 1 - 64000)
  let h := asr var1 2
  let q ← ckS32 mode (h * h)
  let v ← ckS32 mode (asr q 11 * c.p6.toInt)
  let m ← ckS32 mode (var1 * c.p5.toInt)
  let m2 ← ckS32 mode (shl m 1)
  let var2 ← ckS32 mode (v + m2)
  let g ← ckS32 mode (shl c.p4.toInt 16)
  let var2' ← ckS32 mode (asr var2 2 + g)
  let p3q ← ckS32 mode (c.p3.toInt * asr q 13)
  let e1 := asr p3q 3
  let p2v ← ckS32 mode (c.p2.toInt * var1)
  let e2 := asr p2v 1
  let e ← ckS32 mode (e1 + e2)
  let var1' := asr e 18
  let d ← ckS32 mode (32768 + var1')
  let dp ← ckS32 mode (d * c.p1.toNat)
  return (asr dp 15, var2')

/-- The lines of R198 after the zero guard: `p`, a value of u32. -/
def pInt32Tail (mode : OverflowMode) (adcP var1 var2 : Int) (c : PressureCoeffs) : Except FaultBit Nat := do
  let a ← ckS32 mode (1048576 - adcP)
  let p0 := u32 ((u32 a : Int) - u32 (asr var2 12))
  let p1 := u32 (p0 * 3125)
  let p2 := if p1 < 0x80000000 then u32 (shl p1 1) / u32 var1 else u32 (p1 / u32 var1 * 2 : Nat)
  let r := lsr (u32 (lsr p2 3 * lsr p2 3 : Nat)) 13
  let p9r ← ckS32 mode (c.p9.toInt * modS32 r)
  let var1' := asr p9r 12
  let p8p ← ckS32 mode (modS32 (lsr p2 2) * c.p8.toInt)
  let var2' := asr p8p 13
  let vv ← ckS32 mode (var1' + var2')
  let s ← ckS32 mode (vv + c.p7.toInt)
  let z ← ckS32 mode (modS32 p2 + asr s 4)
  return u32 z

/-- COMP_P_INT32, R198: a zero denominator gives 0 (R200). -/
def compPInt32 (mode : OverflowMode) (adcP tFine : S32) (c : PressureCoeffs) : Except FaultBit U32 :=
  match pInt32Head mode tFine.toInt c with
  | .error f => .error f
  | .ok (var1, var2) =>
    if var1 = 0 then .ok 0
    else
      match pInt32Tail mode adcP.toInt var1 var2 c with
      | .error f => .error f
      | .ok p => .ok (BitVec.ofNat 32 p)

/-- The lines of R199 up to the zero guard: the denominator `var1`, and `var2`. -/
def pInt64Head (mode : OverflowMode) (tFine : Int) (c : PressureCoeffs) : Except FaultBit (Int × Int) := do
  let var1 ← ckS64 mode (tFine - 128000)
  let sq ← ckS64 mode (var1 * var1)
  let var2 ← ckS64 mode (sq * c.p6.toInt)
  let m ← ckS64 mode (var1 * c.p5.toInt)
  let m17 ← ckS64 mode (shl m 17)
  let var2' ← ckS64 mode (var2 + m17)
  let p4s ← ckS64 mode (shl c.p4.toInt 35)
  let var2'' ← ckS64 mode (var2' + p4s)
  let sqp3 ← ckS64 mode (sq * c.p3.toInt)
  let e1 := asr sqp3 8
  let vp2 ← ckS64 mode (var1 * c.p2.toInt)
  let e2 ← ckS64 mode (shl vp2 12)
  let var1' ← ckS64 mode (e1 + e2)
  let k ← ckS64 mode (shl 1 47 + var1')
  let kp1 ← ckS64 mode (k * c.p1.toNat)
  return (asr kp1 33, var2'')

/-- The lines of R199 after the zero guard: `p`, a value of s64. -/
def pInt64Tail (mode : OverflowMode) (adcP var1 var2 : Int) (c : PressureCoeffs) : Except FaultBit Int := do
  let p ← ckS32 mode (1048576 - adcP)
  let p31 ← ckS64 mode (shl p 31)
  let n ← ckS64 mode (p31 - var2)
  let n' ← ckS64 mode (n * 3125)
  let p' ← ckS64 mode (sdiv n' var1)
  let b := asr p' 13
  let p9b ← ckS64 mode (c.p9.toInt * b)
  let p9bb ← ckS64 mode (p9b * b)
  let var1' := asr p9bb 25
  let p8p ← ckS64 mode (c.p8.toInt * p')
  let var2' := asr p8p 19
  let pv ← ckS64 mode (p' + var1')
  let s ← ckS64 mode (pv + var2')
  let p7s ← ckS64 mode (shl c.p7.toInt 4)
  let z ← ckS64 mode (asr s 8 + p7s)
  return z

/-- COMP_P_INT64, R199: a zero denominator gives 0 (R200); the result is `mod_u_32` of the s64 (R195). -/
def compPInt64 (mode : OverflowMode) (adcP tFine : S32) (c : PressureCoeffs) : Except FaultBit U32 :=
  match pInt64Head mode tFine.toInt c with
  | .error f => .error f
  | .ok (var1, var2) =>
    if var1 = 0 then .ok 0
    else
      match pInt64Tail mode adcP.toInt var1 var2 c with
      | .error f => .error f
      | .ok p => .ok (BitVec.ofInt 32 p)

/-- The pressure operation `PRESSURE_INT_VARIANT` selects (R172). -/
def compPInt (variant : PressureVariant) (mode : OverflowMode) (adcP tFine : S32) (c : PressureCoeffs) :
    Except FaultBit U32 :=
  match variant with
  | .int32 => compPInt32 mode adcP tFine c
  | .int64 => compPInt64 mode adcP tFine c

/-! ## The operations as instructions -/

/-- COMP_T_INT, R197: its results go to the caller; no block register changes (R190). -/
def execCompTInt (adcT : S32) (t1 : U16) (t2 t3 : S16) (s : State) : Answer :=
  finishOp ((compTInt s.cfg.overflowMode adcT t1 t2 t3).map fun r => .tempInt r.1 r.2) s

/-- COMP_P_INT32, R198. -/
def execCompPInt32 (adcP tFine : S32) (p : PressureCoeffs) (s : State) : Answer :=
  finishOp ((compPInt32 s.cfg.overflowMode adcP tFine p).map .pressInt) s

/-- COMP_P_INT64, R199. -/
def execCompPInt64 (adcP tFine : S32) (p : PressureCoeffs) (s : State) : Answer :=
  finishOp ((compPInt64 s.cfg.overflowMode adcP tFine p).map .pressInt) s

end Sys2Proof.Machine
end

