-- ==== Sys2Proof/Machine/Flags.lean ====
section
/-!
DEFINITION. The numeric encodings of the control registers and the status view SV (R20, R21, R36, R40), the pairing flags
(R32), the recognised identification codes (R27), the measuring bit (R104) and the status codes (R240).
-/

namespace Sys2Proof.Machine

/-- R20, R40. -/
def stateCode : DriverState → BitVec 2
  | .uninit => 0
  | .unsupported => 1
  | .ready => 2
  | .measuring => 3

/-- R21, R40: 3 is never produced. -/
def kindCode : Kind → BitVec 2
  | .unknown => 0
  | .variantA => 1
  | .variantB => 2

/-- R36. -/
def phaseCode : Phase → Nat
  | .idle => 0
  | .idRead => 1
  | .calRead => 2
  | .parse => 3
  | .trigger => 4
  | .poll => 5
  | .settle => 6
  | .burst => 7
  | .compute => 8
  | .done => 9

/-- R240. -/
def statusCode : Status → Byte
  | .ok => 0x00
  | .eUnsupported => 0x01

/-- The status view SV, R40: bit 7 is 0, then PAIRED_F, PAIRED_I, BUSY, KIND, STATE. -/
def State.sv (s : State) : Byte :=
  0#1 ++ BitVec.ofBool s.pairedF ++ BitVec.ofBool s.pairedI ++ BitVec.ofBool s.busy
    ++ kindCode s.kind ++ stateCode s.state

/-- The identification codes the block recognises, R27; every other code is rejected. -/
def identify (id : Byte) : Option Kind :=
  if id = 0x58 then some .variantA
  else if id = 0x60 then some .variantB
  else none

/-- The measurement is complete: `(status AND STATUS_MEASURING_MASK) = 0` (R50, R104). -/
def measurementDone (mask status : Byte) : Bool := status &&& mask == 0

/-- READ_T_INT's pairing, R32. -/
def State.pairInt (s : State) : State := { s with pairedI := true, pairedF := false }

/-- READ_T_FLT's pairing, R32. -/
def State.pairFlt (s : State) : State := { s with pairedF := true, pairedI := false }

end Sys2Proof.Machine
end

