-- ==== Sys2Proof/Machine/Sequencer.lean ====
section
/-!
DEFINITION. SEQ, the sequencer (spec/41_driver.md): its micro-steps by PHASE (R36), each one exchange or hold of a bus
transaction, a pure computation, the settle hold, or the return (R15), and running several of them in a row.
-/

namespace Sys2Proof.Machine

/-! ## The micro-steps -/

/-- After the identification read, R151: a recognised code sets KIND and goes on to the calibration read; any other takes
the unsupported path, R152. -/
def idReadDone (s : State) : State :=
  match identify (s.xbufAt 0) with
  | some k => { s with kind := k }.goTo .calRead
  | none => { s with kind := .unknown, state := .unsupported }.goTo .done

/-- PARSE, R153: CALP fills CAL, all twelve fields at once, and the block is READY. -/
def parseStep (s : State) : State :=
  { s with cal := parseCal (s.xbuf.take 24), state := .ready }.atPhase .done

/-- After a status read, R162: with the measuring bit clear SEQ goes on to SETTLE and fixes its target (R163); else it
polls again. The test and the target are one micro-step (DEDUCED, log entry 17). -/
def pollDone (s : State) : State :=
  if measurementDone s.cfg.statusMeasuringMask (s.xbufAt 0) then
    { s with settleTarget := s.ticks + s.cfg.settleTicks }.goTo .settle
  else { s with bus := .idle }

/-- After the burst read, R164 and the end of R160: RAW takes its six bytes at once, and the block is READY again. -/
def burstDone (s : State) : State :=
  { s with raw := rawOfBytes s.xbuf, state := .ready, bus := .idle }

/-- The command in progress is one that measures, READ_T_INT or READ_T_FLT. -/
def isTempRead (cmd : Byte) : Bool := cmd == 0x10 || cmd == 0x20

/-- READ_T_INT after its SAMPLE, R170: a fault leaves TFINE_I, RES_T_INT and the pairing flags unwritten. -/
def computeTInt (s : State) : State :=
  match compTInt s.cfg.overflowMode s.raw.adcT s.cal.t1 s.cal.t2 s.cal.t3 with
  | .ok (tf, t) => { s with tfineI := tf, resTInt := t, phase := .done }.pairInt
  | .error f => s.raise f

/-- READ_T_FLT after its SAMPLE, R171. -/
def computeTFlt (s : State) : State :=
  match compTFlt s.cfg.floatTfineKind s.raw.adcT s.cal.t1 s.cal.t2 s.cal.t3 with
  | .ok (tf, t) => { s with tfineF := tf, resTFlt := t, phase := .done }.pairFlt
  | .error f => s.raise f

/-- READ_P_INT, R172: UNPAIRED_PRESSURE is tested before any arithmetic (R244). -/
def computePInt (s : State) : State :=
  if s.pairedI then
    match compPInt s.cfg.pressureIntVariant s.cfg.overflowMode s.raw.adcP s.tfineI s.cal.pressure with
    | .ok p => { s with resPInt := p, phase := .done }
    | .error f => s.raise f
  else s.raise .unpairedPressure

/-- READ_P_FLT, R173. -/
def computePFlt (s : State) : State :=
  if s.pairedF then
    { s with resPFlt := compPFlt s.raw.adcP (tfineFValue s.tfineF) s.cal.pressure, phase := .done }
  else s.raise .unpairedPressure

/-- COMPUTE, by the command in progress; no other command reaches it (DESIGN CHOICE, log entry 22). -/
def computeStep (s : State) : Option State :=
  if s.cmd = 0x10 then some (computeTInt s)
  else if s.cmd = 0x20 then some (computeTFlt s)
  else if s.cmd = 0x11 then some (computePInt s)
  else if s.cmd = 0x21 then some (computePFlt s)
  else none

/-- The result of the command in progress (R92, R152, R153, R170 to R173). -/
def commandResult (s : State) : CmdResult :=
  if s.cmd = 0x10 then ⟨.ok, some (.s32 s.resTInt)⟩
  else if s.cmd = 0x20 then ⟨.ok, some (.f64 s.resTFlt)⟩
  else if s.cmd = 0x11 then ⟨.ok, some (.u32 s.resPInt)⟩
  else if s.cmd = 0x21 then ⟨.ok, some (.f64 s.resPFlt)⟩
  else ⟨if s.state = .unsupported then .eUnsupported else .ok, none⟩

/-- The return, R155, from PHASE = DONE, one micro-step (DEDUCED, log entry 17). -/
def exitStep (s : State) : State := ({ s with busy := false }.atPhase .idle).handOver (commandResult s)

/-- A micro-step with no transaction in progress. None: SEQ has nothing to do, or waits at SETTLE (R163). -/
def phaseStep (s : State) : Option State :=
  match s.phase with
  | .idle => none
  | .idRead => some (s.beginRead s.cfg.regId 1)
  | .calRead => some (s.beginRead s.cfg.regCalib 24)
  | .parse => some (parseStep s)
  | .trigger => some (s.beginWrite s.cfg.regCtrlMeas s.cfg.ctrlMeasValue)
  | .poll => some (s.beginRead s.cfg.regStatus 1)
  | .settle => if s.settleTarget ≤ s.ticks then some (s.atPhase .burst) else none
  | .burst =>
    if s.state = .measuring then some (s.beginRead s.cfg.regData 6)
    else if isTempRead s.cmd then some (s.atPhase .compute)
    else none
  | .compute => computeStep s
  | .done => some (exitStep s)

/-- The micro-step that uses a completed transaction (R15: a pure computation). -/
def afterBus (s : State) : Option State :=
  match s.phase with
  | .idRead => some (idReadDone s)
  | .calRead => some (s.goTo .parse)
  | .trigger => some (s.goTo .poll)
  | .poll => some (pollDone s)
  | .burst => some (burstDone s)
  | _ => phaseStep s

/-- One micro-step of SEQ (R15, R36), if it can take one. -/
def seqMicro (s : State) : Option State :=
  match s.bus with
  | .active f => busMicro f s
  | .idle => phaseStep s
  | .done => afterBus s

/-- SEQ is at a hold: of the bus (R135), or SETTLE's (R163). -/
def State.waiting (s : State) : Bool :=
  match s.bus with
  | .active _ => !s.busReady
  | _ => s.phase == .settle && !decide (s.settleTarget ≤ s.ticks)

/-- SEQ moves; or it waits and the agent it waits for moves. -/
def advance (s : State) : Option State :=
  match seqMicro s with
  | some s' => some s'
  | none => if s.waiting then envMove s else none

/-- Up to `n` moves in a row, until `stop` holds, a fault is recorded (R243) or nothing can move. -/
def seqRun (stop : State → Bool) : Nat → State → State
  | 0, s => s
  | n + 1, s =>
    if s.quiescent || stop s then s
    else
      match advance s with
      | some s' => seqRun stop n s'
      | none => s

/-- SEQ goes on with the command or the transaction in progress. -/
def State.runSeq (s : State) : State := seqRun (fun _ => false) s.quantum s

/-- The transport alone goes on with its transaction. -/
def State.runBus (s : State) : State := seqRun (fun t => !t.inTransaction) s.quantum s

/-- SAMPLE has ended: its burst is latched and the block is READY again (R160). -/
def sampleDone (s : State) : Bool := !s.inTransaction && s.phase == .burst && s.state != .measuring

/-- SAMPLE alone goes on. -/
def State.runSample (s : State) : State := seqRun sampleDone s.quantum s

/-- SAMPLE's first line, and SEQ at TRIGGER (R160, R161). -/
def State.startSample (s : State) : State := { s with state := .measuring, phase := .trigger, bus := .idle }

/-! ## Command entry -/

/-- ISSUE after decoding, R150: the checks in the order written, the first that applies is the fault raised (R244); then the
command is admitted, SEQ goes to its first phase (`start`, DEDUCED, log entry 17) and runs. A transaction still in progress with BUSY = 0 is
none of a run's host commands (DESIGN CHOICE, log entry 11). -/
def issue (code : Byte) (isInit : Bool) (start : State → State) (s : State) : Answer :=
  whenLive
    (if s.busy then .next (s.raise .reentrant)
    else if isInit && s.state != .uninit then .next (s.raise .reinit)
    else if !isInit && s.state != .ready then .next (s.raise .notReady)
    else if s.inTransaction then .refused .transactionInProgress
    else .next (start (s.admitted code)).runSeq) s

end Sys2Proof.Machine
end

