-- ==== Sys2Proof/Machine/Driver.lean ====
section
/-!
DEFINITION. The host commands and the driver's internal operations as instructions (spec/41_driver.md).
-/

namespace Sys2Proof.Machine

/-- INIT, R150 to R155: admitted from UNINIT, it begins at ID_READ. -/
def execInit (s : State) : Answer := issue 0x01 true (State.atPhase .idRead) s

/-- READ_T_INT, R170: it begins with SAMPLE. -/
def execReadTInt (s : State) : Answer := issue 0x10 false State.startSample s

/-- READ_T_FLT, R171: it begins with SAMPLE. -/
def execReadTFlt (s : State) : Answer := issue 0x20 false State.startSample s

/-- READ_P_INT, R172: it begins at COMPUTE, no bus transaction. -/
def execReadPInt (s : State) : Answer := issue 0x11 false (State.atPhase .compute) s

/-- READ_P_FLT, R173: it begins at COMPUTE, no bus transaction. -/
def execReadPFlt (s : State) : Answer := issue 0x21 false (State.atPhase .compute) s

/-- SAMPLE, R160, called with `STATE = READY` and `BUSY = 1`. -/
def execSample (s : State) : Answer :=
  whenLive
    (if s.inTransaction then .refused .transactionInProgress
    else if s.state = .ready ∧ s.busy = true then .next s.startSample.runSample
    else .refused .samplePrecondition) s

/-- CAL_PARSE, R154: a pure function of its 24 bytes; its result goes to the caller. -/
def execCalParse (b : List Byte) (s : State) : Answer :=
  whenLive
    (if b.length = 24 then finishOp (.ok (.cal (parseCal b))) s else .refused .operandLength) s

/-- RAW_UNPACK, R165: a pure function of its 6 bytes; its results go to the caller. -/
def execRawUnpack (r : List Byte) (s : State) : Answer :=
  whenLive
    (if r.length = 6 then finishOp (.ok (.raw (rawOfBytes r).adcP (rawOfBytes r).adcT)) s
    else .refused .operandLength) s

end Sys2Proof.Machine
end

