-- ==== Sys2Proof/Machine/Transport.lean ====
section
/-!
DEFINITION. The SPI register transport as instructions (spec/40_transport.md): SPI_WRITE and SPI_READ.
-/

namespace Sys2Proof.Machine

/-- Only one transaction at a time (R139). -/
def startTransaction (begin' : State → State) (s : State) : Answer :=
  whenLive (if s.inTransaction then .refused .transactionInProgress else .next (begin' s).runBus) s

/-- SPI_WRITE, R133. -/
def execSpiWrite (commandByte dataByte : Byte) (s : State) : Answer :=
  startTransaction (fun t => t.beginWrite commandByte dataByte) s

/-- SPI_READ, R137, its address first put in XBUF[0] (R33, DESIGN CHOICE, log entry 20); a count outside `1 .. XBUF_LEN` is refused
(DEDUCED, log entry 18). -/
def execSpiRead (addr : Byte) (count : Nat) (s : State) : Answer :=
  whenLive
    (if 1 ≤ count ∧ count ≤ s.cfg.xbufLen then startTransaction (fun t => t.beginRead addr count) s
    else .refused .readCount) s

end Sys2Proof.Machine
end

