-- ==== Sys2Proof/Machine/Dispatch.lean ====
section
/-!
DEFINITION. The dispatch: one arm per constructor of Instr, each one call of its meaning.
-/

namespace Sys2Proof.Machine

def exec (i : Instr) (s : State) : Host.Outcome State Fault Refusal :=
  match i with
  | .spiWrite commandByte dataByte => Sys2Proof.Machine.execSpiWrite commandByte dataByte s
  | .spiRead addr count => Sys2Proof.Machine.execSpiRead addr count s
  | .init => Sys2Proof.Machine.execInit s
  | .readTInt => Sys2Proof.Machine.execReadTInt s
  | .readPInt => Sys2Proof.Machine.execReadPInt s
  | .readTFlt => Sys2Proof.Machine.execReadTFlt s
  | .readPFlt => Sys2Proof.Machine.execReadPFlt s
  | .calParse b => Sys2Proof.Machine.execCalParse b s
  | .sample => Sys2Proof.Machine.execSample s
  | .rawUnpack r => Sys2Proof.Machine.execRawUnpack r s
  | .compTInt adcT t1 t2 t3 => Sys2Proof.Machine.execCompTInt adcT t1 t2 t3 s
  | .compPInt32 adcP tFine p => Sys2Proof.Machine.execCompPInt32 adcP tFine p s
  | .compPInt64 adcP tFine p => Sys2Proof.Machine.execCompPInt64 adcP tFine p s
  | .compTFlt adcT t1 t2 t3 => Sys2Proof.Machine.execCompTFlt adcT t1 t2 t3 s
  | .compPFlt adcP tf p => Sys2Proof.Machine.execCompPFlt adcP tf p s

end Sys2Proof.Machine
end

