-- ==== Sys2Proof/Machine/Step.lean ====
section
/-!
DEFINITION. One step of the machine, and where the host places an instruction.
-/

namespace Sys2Proof.Machine

/-- One step where the schedule `sched` says whose turn it is when the agenda is empty (`stepWith`). -/
def stepUnder (sched : Nat → Turn) (s : State) : Host.Outcome State Fault Refusal := stepWith sched exec State.runSeq s

/-- One step: the schedule is free (DESIGN CHOICE, log entry 5). -/
def step (s : State) : Host.Outcome State Fault Refusal := stepUnder Config.freeTurn s

/-- `s` with that instruction as the next move, so that the very next step runs it (DESIGN CHOICE, log entry 14). -/
def State.withFetchWord (s : State) (nbits w : Nat) : State := s.placeWord nbits w

end Sys2Proof.Machine
end

