-- ==== Sys2Proof/Machine/Effects.lean ====
section
/-!
DEFINITION. What each rule's pseudocode does when nothing comes between its lines, in one go: whole transactions (R133, R137),
INIT (R151 to R153), SAMPLE (R160 to R164), the return of a command (R155), FXP on machine words and FXP's lines in exact
integers (R192). No step uses these definitions; the statements say that the machine arrives at them.
-/

namespace Sys2Proof.Machine

/-- The byte SENSOR shifts in at position `i` of a transaction that starts in `s` (R66, R132). -/
def misoAt (s : State) (mosi : List Byte) (i : Nat) : Byte :=
  (s.sensor[i]?).getD (Config.sensorByte (s.draws + i) s.hist mosi i)

/-- All the bytes shifted in during that transaction. -/
def misoOf (s : State) (mosi : List Byte) : List Byte := (List.range mosi.length).map (misoAt s mosi)

/-- A whole transaction: HIST records it, SENSOR has given its bytes, `CS` is released (R131, R133, R137). -/
def State.transact (mosi : List Byte) (s : State) : State :=
  { s with
    cs := .released
    bus := .done
    hist := s.hist ++ [⟨mosi, misoOf s mosi⟩]
    sensor := s.sensor.drop mosi.length
    draws := s.draws + mosi.length }

/-- SPI_WRITE, R133. -/
def State.writeAll (commandByte dataByte : Byte) (s : State) : State := s.transact (writeFrame commandByte dataByte)

/-- XBUF after SPI_READ, R137, R138: byte `i` of the head is the byte shifted in at position `i + 1`. -/
def readBuffer (addr : Byte) (count : Nat) (s : State) : List Byte :=
  captured count (misoOf s (readFrame addr count)) (setHead addr s.xbuf)

/-- SPI_READ, R137, with its address put in XBUF[0] (R33). -/
def State.readAll (addr : Byte) (count : Nat) (s : State) : State :=
  { s.transact (readFrame addr count) with xbuf := readBuffer addr count s }

/-- `exit (status, value)`, R155. -/
def State.exit (status : Status) (value : Option Value) (s : State) : State :=
  { s with busy := false, phase := .idle, bus := .idle, results := s.results ++ [⟨status, value⟩] }

/-- INIT, R151 to R153. -/
def State.initAll (s : State) : State :=
  let s1 := (s.admitted 0x01).readAll s.cfg.regId 1
  match identify (s1.xbufAt 0) with
  | none => { s1 with kind := .unknown, state := .unsupported }.exit .eUnsupported none
  | some k =>
    let s2 := { s1 with kind := k }.readAll s.cfg.regCalib 24
    { s2 with cal := parseCal (s2.xbuf.take 24), state := .ready }.exit .ok none

/-- One status read of POLL, R162. -/
def State.pollOnce (s : State) : State := s.readAll s.cfg.regStatus 1

/-- Its answer has the measuring bit clear (R162). -/
def State.pollClear (s : State) : Bool := measurementDone s.cfg.statusMeasuringMask (s.pollOnce.xbufAt 0)

/-- POLL with `n` reads before the last one (R162). -/
def State.pollAll : Nat → State → State
  | 0, s => s.pollOnce
  | n + 1, s => s.pollOnce.pollAll n

/-- SENSOR_COMPLETES (R282) after exactly `n` busy answers: the first `n` status reads answer with the measuring bit set, the
next with the bit clear. -/
def State.pollEnds : Nat → State → Bool
  | 0, s => s.pollClear
  | n + 1, s => !s.pollClear && s.pollOnce.pollEnds n

/-- The first `n` status reads answer with the measuring bit set (R162). -/
def State.pollBusy : Nat → State → Bool
  | 0, _ => true
  | n + 1, s => !s.pollClear && s.pollOnce.pollBusy n

/-- SETTLE, R163, ended by the `SETTLE_TICKS` ticks that come next. -/
def State.settleAll (s : State) : State :=
  { s with
    settleTarget := s.ticks + s.cfg.settleTicks
    ticks := s.ticks + s.cfg.settleTicks
    agenda := s.agenda.drop s.cfg.settleTicks }

/-- SAMPLE up to POLL, R160 and R161. -/
def State.triggerAll (s : State) : State :=
  (s.startSample.writeAll s.cfg.regCtrlMeas s.cfg.ctrlMeasValue).atPhase .poll

/-- SAMPLE up to BURST, R160 to R163, with `n` busy status reads. -/
def State.sampleHead (n : Nat) (s : State) : State :=
  (((s.triggerAll.pollAll n).atPhase .settle).settleAll).atPhase .burst

/-- SAMPLE, R160 to R164, with `n` busy status reads. -/
def State.sampleAll (n : Nat) (s : State) : State :=
  let s1 := (s.sampleHead n).readAll s.cfg.regData 6
  { s1 with raw := rawOfBytes s1.xbuf, state := .ready, bus := .idle }

/-! ## FXP on two's-complement machine words

R192: what WRAP mode yields is what two's-complement hardware without trapping gives. -/

/-- COMP_T_INT, R197, in 32-bit machine arithmetic. -/
def wordTInt (adcT : S32) (t1 : U16) (t2 t3 : S16) : S32 × S32 :=
  let c1 : S32 := t1.zeroExtend 32
  let c2 : S32 := t2.signExtend 32
  let c3 : S32 := t3.signExtend 32
  let var1 := ((adcT.sshiftRight 3 - c1 <<< 1) * c2).sshiftRight 11
  let d := adcT.sshiftRight 4 - c1
  let var2 := ((d * d).sshiftRight 12 * c3).sshiftRight 14
  let tFine := var1 + var2
  (tFine, (tFine * 5 + 128).sshiftRight 8)

/-- COMP_P_INT32, R198, in 32-bit machine arithmetic. -/
def wordPInt32 (adcP tFine : S32) (c : PressureCoeffs) : U32 :=
  let p1 : S32 := c.p1.zeroExtend 32
  let s (x : S16) : S32 := x.signExtend 32
  let var1 := tFine.sshiftRight 1 - 64000
  let h := var1.sshiftRight 2
  let q := h * h
  let var2 := q.sshiftRight 11 * s c.p6 + (var1 * s c.p5) <<< 1
  let var2' := var2.sshiftRight 2 + s c.p4 <<< 16
  let e := (s c.p3 * q.sshiftRight 13).sshiftRight 3 + (s c.p2 * var1).sshiftRight 1
  let den := ((32768 + e.sshiftRight 18) * p1).sshiftRight 15
  if den = 0 then 0
  else
    let a := ((1048576 - adcP) - var2'.sshiftRight 12) * 3125
    let p := if a.toNat < 0x80000000 then (a <<< 1) / den else a / den * 2
    let r := (p >>> 3 * p >>> 3) >>> 13
    let x := (s c.p9 * r).sshiftRight 12 + (p >>> 2 * s c.p8).sshiftRight 13 + s c.p7
    p + x.sshiftRight 4

/-- COMP_P_INT64, R199, in 64-bit machine arithmetic. -/
def wordPInt64 (adcP tFine : S32) (c : PressureCoeffs) : U32 :=
  let p1 : S64 := c.p1.zeroExtend 64
  let s (x : S16) : S64 := x.signExtend 64
  let var1 := tFine.signExtend 64 - 128000
  let sq := var1 * var1
  let var2 := sq * s c.p6 + (var1 * s c.p5) <<< 17 + s c.p4 <<< 35
  let e := (sq * s c.p3).sshiftRight 8 + (var1 * s c.p2) <<< 12
  let den := (((1 : S64) <<< 47 + e) * p1).sshiftRight 33
  if den = 0 then 0
  else
    let n := (((1048576 - adcP).signExtend 64) <<< 31 - var2) * 3125
    let p := n.sdiv den
    let b := p.sshiftRight 13
    let x := p + (s c.p9 * b * b).sshiftRight 25 + (s c.p8 * p).sshiftRight 19
    (x.sshiftRight 8 + s c.p7 <<< 4).truncate 32

/-! ## FXP in exact integers

Each function computes the lines in order without a checkpoint: whether the exact value of every checked line lies in its
range (R192), and the value. -/

/-- COMP_T_INT, R197: `t_fine` and `T`. -/
def exactTInt (adcT : S32) (t1 : U16) (t2 t3 : S16) : Bool × Int × Int :=
  let v1a : Int := asr adcT.toInt 3 - 2 * t1.toNat
  let v1b := v1a * t2.toInt
  let v2a : Int := asr adcT.toInt 4 - t1.toNat
  let v2b := v2a * v2a
  let v2d := asr v2b 12 * t3.toInt
  let tFine := asr v1b 11 + asr v2d 14
  ([2 * (t1.toNat : Int), v1a, v1b, v2a, v2b, v2d, tFine, 5 * tFine, 5 * tFine + 128].all inS32,
    tFine, asr (5 * tFine + 128) 8)

/-- COMP_P_INT32 up to the zero guard, R198: the denominator and `var2`. -/
def exactPInt32Head (tFine : S32) (c : PressureCoeffs) : Bool × Int × Int :=
  let x := asr tFine.toInt 1 - 64000
  let q := asr x 2 * asr x 2
  let v := asr q 11 * c.p6.toInt
  let m := x * c.p5.toInt
  let y := v + 2 * m
  let g := 65536 * c.p4.toInt
  let var2 := asr y 2 + g
  let a := c.p3.toInt * asr q 13
  let b := c.p2.toInt * x
  let e := asr a 3 + asr b 1
  let d := 32768 + asr e 18
  let dp := d * c.p1.toNat
  ([x, q, v, m, 2 * m, y, g, var2, a, b, e, d, dp].all inS32, asr dp 15, var2)

/-- COMP_P_INT32 after the zero guard, R198; the u32 lines are taken modulo `2^32` and never overflow (R195). -/
def exactPInt32Tail (adcP : S32) (den var2 : Int) (c : PressureCoeffs) : Bool × Int :=
  let a := 1048576 - adcP.toInt
  let n := (a - asr var2 12) * 3125 % 2 ^ 32
  let d := den % 2 ^ 32
  let p := if n < 2 ^ 31 then 2 * n / d else 2 * (n / d) % 2 ^ 32
  let r := asr (asr p 3 * asr p 3 % 2 ^ 32) 13
  let x := c.p9.toInt * modS32 r
  let y := modS32 (asr p 2) * c.p8.toInt
  let u := asr x 12 + asr y 13
  let s := u + c.p7.toInt
  let z := modS32 p + asr s 4
  ([a, x, y, u, s, z].all inS32, z)

/-- COMP_P_INT64 up to the zero guard, R199: the denominator and `var2`. -/
def exactPInt64Head (tFine : S32) (c : PressureCoeffs) : Bool × Int × Int :=
  let x := tFine.toInt - 128000
  let q := x * x
  let v := q * c.p6.toInt
  let m := x * c.p5.toInt
  let y := v + 2 ^ 17 * m
  let g := 2 ^ 35 * c.p4.toInt
  let var2 := y + g
  let a := q * c.p3.toInt
  let b := x * c.p2.toInt
  let e := asr a 8 + 2 ^ 12 * b
  let k : Int := 2 ^ 47 + e
  let kp := k * c.p1.toNat
  ([x, q, v, m, 2 ^ 17 * m, y, g, var2, a, b, 2 ^ 12 * b, e, k, kp].all inS64, asr kp 33, var2)

/-- COMP_P_INT64 after the zero guard, R199; its first line is an s32, the others are s64. -/
def exactPInt64Tail (adcP : S32) (den var2 : Int) (c : PressureCoeffs) : Bool × Int :=
  let a := 1048576 - adcP.toInt
  let n := 2 ^ 31 * a - var2
  let p := sdiv (3125 * n) den
  let b := asr p 13
  let x := c.p9.toInt * b
  let y := c.p8.toInt * p
  let u := p + asr (x * b) 25
  let s := u + asr y 19
  let g := 2 ^ 4 * c.p7.toInt
  let z := asr s 8 + g
  (inS32 a && [2 ^ 31 * a, n, 3125 * n, p, x, x * b, y, u, s, g, z].all inS64, z)

/-- A head, the zero guard (R200), and a tail where the guard does not end the operation. -/
def exactGuarded (head : Bool × Int × Int) (tail : Int → Int → Bool × Int) : Bool × Int :=
  if head.2.1 = 0 then (head.1, 0)
  else (head.1 && (tail head.2.1 head.2.2).1, (tail head.2.1 head.2.2).2)

/-- COMP_P_INT32, R198. -/
def exactPInt32 (adcP tFine : S32) (c : PressureCoeffs) : Bool × Int :=
  exactGuarded (exactPInt32Head tFine c) fun den var2 => exactPInt32Tail adcP den var2 c

/-- COMP_P_INT64, R199. -/
def exactPInt64 (adcP tFine : S32) (c : PressureCoeffs) : Bool × Int :=
  exactGuarded (exactPInt64Head tFine c) fun den var2 => exactPInt64Tail adcP den var2 c

end Sys2Proof.Machine
end

