-- ==== Sys2Proof/Safety.lean ====
section
/-!
DEFINITION. The terms the statements use: which states a command is admitted in (R150), the liveness premises BUS_LIVE (R141),
TICK_FAIR (R281) and SENSOR_COMPLETES (R282), runs under a schedule of the agents, exact binary64 values, and the invariant of
the machine's states.
-/

namespace Sys2Proof.Machine

/-- The block is live, not busy, in driver state `d`, and no transaction is in progress: R150's checks pass. -/
def Admits (d : DriverState) (s : State) : Prop :=
  s.faults = 0 ∧ s.busy = false ∧ s.state = d ∧ s.inTransaction = false

/-- BUS_LIVE, R141: the bus hardware lifts every hold SEQ meets. -/
def BusLive (s : State) : Prop := s.busReady = true

/-- The move the next step takes. -/
def State.upNext (s : State) : Move := s.nextMove Config.freeTurn

/-- The run from `s` under the schedule `sched`, after `n` steps; none where it has stopped. A run of the machine is one under
the schedule `Config.freeTurn`, of which nothing is known, so that a statement about every schedule is about every run. -/
def runUnder (sched : Nat → Turn) : Nat → State → Option State
  | 0, s => some s
  | n + 1, s =>
    match stepUnder sched s with
    | .next t => runUnder sched n t
    | _ => none

/-- TICK_FAIR, R281: TICK takes infinitely many steps. -/
def TickFair (sched : Nat → Turn) : Prop := ∀ n, ∃ m, n ≤ m ∧ sched m = .tick

/-- SEQ is not kept from moving for ever (R15: a hold blocks it, nothing else does) (DESIGN CHOICE, log entry 5). -/
def SeqFair (sched : Nat → Turn) : Prop := ∀ n, ∃ m, n ≤ m ∧ sched m = .seq

/-- TICK_FAIR, R281, as far as a SETTLE that ends within one step needs it: TICK's next moves are `SETTLE_TICKS` steps. -/
def TicksComing (s : State) : Prop := s.agenda.take s.cfg.settleTicks = List.replicate s.cfg.settleTicks .tick

/-- The exact value of a finite binary64 number (R13, R220). -/
def f64Value (x : F64) : ℚ := (if x.msb then -1 else 1) * f64Sig x * 2 ^ f64Pow x

/-- A fine temperature TFINE_F can hold: any s32, or a finite binary64 number of magnitude at most `2^22` (R224, R227). -/
def TfineFBounded : TfineF → Prop
  | .s32 _ => True
  | .f64 x => f64Exp x ≠ 2047 ∧ |f64Value x| ≤ 2 ^ 22

/-- What PHASE says of the rest of the control state (R20, R22, R36, R150 to R173). -/
def phaseOk (s : State) : Bool :=
  match s.phase with
  | .idle => !s.busy && s.state != .measuring
  | .idRead => s.busy && s.cmd == 0x01 && s.state == .uninit
  | .calRead | .parse => s.busy && s.cmd == 0x01 && s.state == .uninit && s.kind != .unknown
  | .trigger | .poll | .settle => s.busy && isTempRead s.cmd && s.state == .measuring
  | .burst => s.busy && isTempRead s.cmd && (s.state == .measuring || s.state == .ready)
  | .compute => s.busy && (isTempRead s.cmd || s.cmd == 0x11 || s.cmd == 0x21) && s.state == .ready
  | .done => s.busy && (s.state == .ready || (s.cmd == 0x01 && s.state == .unsupported))

/-- A transaction in progress is as R133 and R137 build it: as many bytes in as out, SEQ past BYTE_ACCEPTED only when all are
out, and a read has `1 + count` bytes, `1 <= count <= XBUF_LEN`. -/
def frameOk (xbufLen : Nat) (f : Frame) : Bool :=
  f.got.length == f.sent.length
    && (f.hold != .quiescent || f.todo == [])
    && (match f.kind with
      | .write => true
      | .read count =>
        decide (1 ≤ count) && decide (count ≤ xbufLen) && f.sent.length + f.todo.length == count + 1)

def busOk (s : State) : Bool :=
  match s.bus with
  | .active f => s.cs == .asserted && frameOk s.cfg.xbufLen f
  | _ => s.cs == .released

/-- TFINE_F holds what FLOAT_TFINE_KIND says (R29). -/
def tfineFOk (s : State) : Bool :=
  match s.cfg.floatTfineKind, s.tfineF with
  | .truncS32, .s32 _ => true
  | .binary64, .f64 _ => true
  | _, _ => false

/-- Before a successful INIT of the session, CAL, RAW, the fine temperatures, the results and the pairing flags are at their
reset values (R24, R26, R28 to R32, R51). -/
def unreadOk (s : State) : Bool :=
  s.state == .ready || s.state == .measuring
    || (s.cal == CalibrationSet.zero && s.raw == RawSample.zero && s.tfineI == 0
      && s.tfineF == TfineF.zero s.cfg.floatTfineKind && s.resTInt == 0 && s.resPInt == 0
      && s.resTFlt == 0 && s.resPFlt == 0 && !s.pairedI && !s.pairedF && s.settleTarget == 0)

/-- KIND and STATE (R21, R151, R152): a READY or MEASURING block knows its device, an UNSUPPORTED one does not. -/
def kindOk (s : State) : Bool :=
  match s.state with
  | .ready | .measuring => s.kind != .unknown
  | .unsupported => s.kind == .unknown
  | .uninit => true

/-- The invariant of the machine's states. -/
structure Inv (s : State) : Prop where
  /-- XBUF holds XBUF_LEN bytes (R33). -/
  xbuf : s.xbuf.length = s.cfg.xbufLen
  /-- CS is ASSERTED exactly during a transaction (R34, R131), and the transaction is as R133 and R137 build it. -/
  bus : busOk s = true
  /-- TFINE_F's type (R29). -/
  tfineF : tfineFOk s = true
  /-- The pairing flags are never both set (R32). -/
  paired : (s.pairedI && s.pairedF) = false
  /-- FAULTS bit 7 is never set (R39). -/
  faults : s.faults.getLsbD 7 = false
  /-- BUSY, STATE, CMD and KIND are what PHASE says (R22, R36). -/
  phase : phaseOk s = true
  /-- What no INIT has loaded and no accessor has written is at its reset value. -/
  unread : unreadOk s = true
  /-- KIND and STATE agree (R21). -/
  kind : kindOk s = true

/-- A safe state: no fault is recorded (R243). -/
def Safe (s : State) : Prop := s.faults = 0

end Sys2Proof.Machine
end

