-- ==== Sys2Proof/Certificates/Slice0/Obligations.lean ====
section
/-!
DEFINITION. The statements for the provers, each a proposition about the model that the named rule of spec/ gives.
`OBLIGATIONS.json` lists them with their citations. Where a premise bounds `quantum` from below, it says that no other agent moves
before the command has ended, but for the ticks a SETTLE waits for (DESIGN CHOICE, log entry 5, the model's own field); `stepUnder
sched` is a step with the schedule `sched` in the place of the free one, so that a statement about every `sched` is about `step`; BUS_LIVE, TICK_FAIR and SENSOR_COMPLETES are the spec's
named premises (R141, R281, R282).
-/

open Sys2Proof Sys2Proof.Machine

/-! ## Encodings -/

/-- R93: the decoder of host command codes is total, each of the five codes of R91 is its instruction, and every other code is
illegal. -/
def Obligations.HostCodesDecode : Prop :=
  ∀ c : Byte,
    (decodeHost c = .ok .init ↔ c = 0x01) ∧ (decodeHost c = .ok .readTInt ↔ c = 0x10) ∧
    (decodeHost c = .ok .readPInt ↔ c = 0x11) ∧ (decodeHost c = .ok .readTFlt ↔ c = 0x20) ∧
    (decodeHost c = .ok .readPFlt ↔ c = 0x21) ∧
    (decodeHost c = .error (.illegalCommand c) ↔
      c ≠ 0x01 ∧ c ≠ 0x10 ∧ c ≠ 0x11 ∧ c ≠ 0x20 ∧ c ≠ 0x21)

/-- Words written out from R91, R97 and R98 (vectors HC-1 to HC-6, SP-1 to SP-7) decode to what they stand for. -/
def Obligations.SpecWordsDecode : Prop :=
  decodeWire (.command 0b00000001) = .ok .init ∧
  decodeWire (.command 0b00010000) = .ok .readTInt ∧
  decodeWire (.command 0b00100001) = .ok .readPFlt ∧
  decodeWire (.command 0x81) = .error (.illegalCommand 0x81) ∧
  decodeWire (.frame [0b01110100, 0b00100101]) = .ok (.spiWrite 0x74 0x25) ∧
  decodeWire (.frame [0b11010000, 0b00000000]) = .ok (.spiRead 0xD0 1) ∧
  decodeWire (.frame [0xF7, 0, 0, 0, 0, 0, 0]) = .ok (.spiRead 0xF7 6) ∧
  decodeWire (.frame [0xF7, 0, 1]) = .error .readPadding ∧
  decodeWire (.frame [0x74]) = .error .writeFrameLength

/-- R91, R97, R98: decoding the words of a well-formed instruction gives it back, as the wire carries it. -/
def Obligations.DecodeInvertsEncode : Prop :=
  ∀ (i : Instr) (w : Wire), i.wf = true → encode i = some w → decodeWire w = .ok i.onWire

/-- R91, R96 to R99: what decodes is well formed and is encoded by exactly those words, so no word has two meanings. -/
def Obligations.EncodeInvertsDecode : Prop :=
  ∀ (w : Wire) (i : Instr), decodeWire w = .ok i → i.wf = true ∧ i.onWire = i ∧ encode i = some w

/-! ## The step -/

/-- A step whose next move is HOST's runs the command its code decodes to (R150). -/
def Obligations.StepRunsHostCommand : Prop :=
  ∀ (s : State) (c : Byte) (i : Instr),
    s.cfg.wf = true → s.faults = 0 → s.upNext = .host c → decodeHost c = .ok i → step s = exec i s.moveTaken

/-- A step at a state where a table row's word is placed runs the instruction it decodes to, between host commands. How a row's
bits lie on the wire and are placed is the model's choice (log entries 11 and 14). -/
def Obligations.StepRunsPlacedWord : Prop :=
  ∀ (s : State) (nbits w : Nat) (i : Instr),
    s.cfg.wf = true → s.faults = 0 → s.busy = false → decodeTableWord nbits w = some i →
      step (s.withFetchWord nbits w) = exec i s

/-- A step whose move is SEQ's is up to `quantum` micro-steps of the command in progress (how many is the model's choice, DESIGN
CHOICE, log entry 5), one micro-step where `quantum` is 1 (R15); an idle block waits (R273). -/
def Obligations.StepGoesOn : Prop :=
  ∀ s : State, s.cfg.wf = true → s.faults = 0 → s.upNext = .seq →
    step s = .next s.moveTaken.runSeq ∧
    (s.quantum = 1 → ∀ t, seqMicro s.moveTaken = some t → step s = .next t) ∧
    (s.phase = .idle → s.inTransaction = false → step s = .next s.moveTaken)

/-- R139, R253, R271: the other agents move between any two micro-steps of SEQ: after one micro-step any number `k` of TICK steps
adds `k` to the count and nothing else, then SEQ goes on, and then a RESET step may end what it was doing. -/
def Obligations.OthersMoveBetweenMicroSteps : Prop :=
  ∀ (sched : Nat → Turn) (k : Nat) (s t u : State) (rest : List Move),
    s.cfg.wf = true → s.faults = 0 → s.quantum = 1 →
    s.agenda = .seq :: (List.replicate k .tick ++ .seq :: .reset :: rest) →
    seqMicro s.moveTaken = some t → t.faults = 0 →
    seqMicro { t with ticks := t.ticks + k, agenda := .reset :: rest } = some u → u.faults = 0 →
      runUnder sched (k + 2) s = some u ∧
      runUnder sched (k + 3) s = some { u with agenda := rest }.takeReset

/-- R9: the well-formed parameter records; the others are refused before any step; the defaults of R8 are well formed. -/
def Obligations.IllFormedConfigurationsRefused : Prop :=
  (∀ p : Params, p.wf = true ↔
    (p.regId.getLsbD 7 = true ∧ p.regCalib.getLsbD 7 = true ∧ p.regStatus.getLsbD 7 = true ∧ p.regData.getLsbD 7 = true) ∧
    (p.regCalib.toNat + 23 ≤ 0xFF ∧ p.regData.toNat + 5 ≤ 0xFF) ∧ p.statusMeasuringMask ≠ 0 ∧ 24 ≤ p.xbufLen ∧
    addrPhaseLen = 1) ∧
  (∀ s : State, s.cfg.wf = false → step s = .refused .illFormedConfig) ∧
  Params.default.wf = true

/-- R253: a TICK step adds 1 to the tick count and changes nothing else of the block, at any time. -/
def Obligations.TickOnlyCounts : Prop :=
  ∀ s : State, s.cfg.wf = true → s.upNext = .tick → step s = .next { s.moveTaken with ticks := s.ticks + 1 }

/-! ## Faults -/

/-- R243: raising a fault sets its own bit and changes no other bit and no other register. -/
def Obligations.RaiseSetsOneBit : Prop :=
  ∀ (f : FaultBit) (s : State),
    s.raise f = { s with faults := (s.raise f).faults } ∧
    ∀ i : Nat, i < 8 → (s.raise f).faults.getLsbD i = (s.faults.getLsbD i || decide (i = faultIndex f))

/-- R243, R271: once a fault is recorded no instruction runs, and no step is taken by SEQ, by HOST or by RESET. -/
def Obligations.QuiescentTakesNoStep : Prop :=
  ∀ s : State, s.faults ≠ 0 →
    (∀ i : Instr, exec i s = .fault .quiescent) ∧
    (s.cfg.wf = true →
      (s.upNext = .seq ∨ (∃ c, s.upNext = .host c) ∨ (∃ m, s.upNext = .spi m) ∨ s.upNext = .reset) →
      step s = .fault .quiescent)

/-- R245: a code outside R91 raises ILLEGAL_CMD before any other check, and nothing but FAULTS changes. -/
def Obligations.IllegalCodeFaults : Prop :=
  ∀ (s : State) (c : Byte),
    s.cfg.wf = true → s.faults = 0 → s.upNext = .host c →
    c ≠ 0x01 → c ≠ 0x10 → c ≠ 0x11 → c ≠ 0x20 → c ≠ 0x21 →
      step s = .next { s.moveTaken with faults := 0x01 }

/-- R246: a legal command issued while BUSY = 1 raises REENTRANT, whatever the driver state, and the block is quiescent. -/
def Obligations.ReentrantFaults : Prop :=
  ∀ (s : State) (c : Byte) (i : Instr),
    s.faults = 0 → s.busy = true → decodeHost c = .ok i →
      exec i s = .next { s with faults := 0x02 } ∧ { s with faults := 0x02 }.quiescent = true

/-- R247: a read accessor issued when STATE is not READY raises NOT_READY, and nothing else changes. -/
def Obligations.NotReadyFaults : Prop :=
  ∀ (s : State) (c : Byte) (i : Instr),
    s.faults = 0 → s.busy = false → s.state ≠ .ready → decodeHost c = .ok i → c ≠ 0x01 →
      exec i s = .next { s with faults := 0x04 }

/-- R248: INIT issued when STATE is not UNINIT raises REINIT, and nothing else changes. -/
def Obligations.ReinitFaults : Prop :=
  ∀ s : State, s.faults = 0 → s.busy = false → s.state ≠ .uninit →
    exec .init s = .next { s with faults := 0x08 }

/-- R249: a pressure read that is not paired raises UNPAIRED_PRESSURE before any arithmetic; BUSY stays 1, PHASE is COMPUTE,
no result register changes and nothing is returned. -/
def Obligations.UnpairedPressureFaults : Prop :=
  ∀ s : State, Admits .ready s → 1 ≤ s.quantum →
    (s.pairedI = false →
      exec .readPInt s = .next { s with cmd := 0x11, busy := true, phase := .compute, bus := .idle, faults := 0x10 }) ∧
    (s.pairedF = false →
      exec .readPFlt s = .next { s with cmd := 0x21, busy := true, phase := .compute, bus := .idle, faults := 0x10 })

/-- R250: an overflow in READ_P_INT's operation stops it at COMPUTE with ARITH_OVERFLOW; RES_P_INT is not written. -/
def Obligations.PressureOverflowFaults : Prop :=
  ∀ s : State, Admits .ready s → 1 ≤ s.quantum → s.pairedI = true →
    compPInt s.cfg.pressureIntVariant s.cfg.overflowMode s.raw.adcP s.tfineI s.cal.pressure = .error .arithOverflow →
      exec .readPInt s = .next { s with cmd := 0x11, busy := true, phase := .compute, bus := .idle, faults := 0x20 }

/-! ## Reset -/

/-- R51, R270: a RESET step gives every block register its reset value, keeps HIST and FAULTS, returns no result and leaves
the sensor alone; afterwards SEQ is idle. -/
def Obligations.ResetStepResets : Prop :=
  ∀ s : State, s.cfg.wf = true → s.faults = 0 → s.upNext = .reset →
    ∃ t, step s = .next t ∧
      t.state = .uninit ∧ t.kind = .unknown ∧ t.busy = false ∧ t.cal = CalibrationSet.zero ∧ t.raw = RawSample.zero ∧
      t.xbuf = List.replicate s.cfg.xbufLen 0 ∧ t.tfineI = 0 ∧
      t.tfineF = (match s.cfg.floatTfineKind with | .truncS32 => .s32 0 | .binary64 => .f64 0) ∧
      t.resTInt = 0 ∧ t.resPInt = 0 ∧ t.resTFlt = 0 ∧ t.resPFlt = 0 ∧ t.pairedI = false ∧ t.pairedF = false ∧
      t.cs = .released ∧ t.phase = .idle ∧ t.cmd = 0x00 ∧ t.settleTarget = 0 ∧ t.inTransaction = false ∧
      t.hist = s.hist ∧ t.faults = s.faults ∧ t.results = s.results ∧ t.sensor = s.sensor ∧ t.cfg = s.cfg ∧
      t.runSeq = t

/-- R272: a run starts with FAULTS 0x00, HIST empty and the registers at their reset values, under a well-formed
configuration; SV is then 0x00, and in every state it packs STATE, KIND, BUSY, PAIRED_I and PAIRED_F as R40 says. The count of
draws and the count of turns are the model's own (DESIGN CHOICE, log entries 2 and 5). -/
def Obligations.InitialStateIsReset : Prop :=
  State.reset.faults = 0x00 ∧ State.reset.hist = [] ∧ State.reset.cfg.wf = true ∧ State.reset.sv = 0x00 ∧
  State.reset.cfg = Params.default ∧
  (∀ p : Params,
    (State.initial p).sv = 0x00 ∧
    { (State.initial p).takeReset with ticks := (State.initial p).ticks, draws := 1 } = State.initial p) ∧
  ∀ s : State,
    s.sv.toNat =
      (match s.state with | .uninit => 0 | .unsupported => 1 | .ready => 2 | .measuring => 3)
        + 4 * (match s.kind with | .unknown => 0 | .variantA => 1 | .variantB => 2)
        + 16 * (if s.busy then 1 else 0) + 32 * (if s.pairedI then 1 else 0) + 64 * (if s.pairedF then 1 else 0)

/-- The invariant holds at the start of a run, for every configuration. -/
def Obligations.InitialStateHasInv : Prop := ∀ p : Params, Inv (State.initial p)

/-- Every step keeps the invariant: XBUF's length, chip-select framing, TFINE_F's type, the exclusion of the pairing flags,
the reserved fault bit, what PHASE says of BUSY, STATE, CMD and KIND, and the reset values of what nothing has written. -/
def Obligations.StepKeepsInv : Prop :=
  ∀ s t : State, Inv s → step s = .next t → Inv t

/-! ## The transport -/

/-- R133: SPI_WRITE completes when the bus is live: one frame of two bytes, bit 7 of the first cleared, and no block register
but CS and HIST changes. -/
def Obligations.SpiWriteCompletes : Prop :=
  ∀ (c d : Byte) (s : State), s.faults = 0 → s.inTransaction = false → BusLive s → 4 ≤ s.quantum →
    exec (.spiWrite c d) s = .next (s.writeAll c d) ∧
    s.writeAll c d =
      { s with
        cs := .released, bus := .done
        hist := s.hist ++ [⟨[c &&& 0x7F, d], [misoAt s [c &&& 0x7F, d] 0, misoAt s [c &&& 0x7F, d] 1]⟩]
        sensor := s.sensor.drop 2, draws := s.draws + 2 }

/-- R137: SPI_READ completes when the bus is live, for every count it allows: the address unchanged and then `count` zero
bytes go out, and the captured bytes are in XBUF. Any other count is refused. -/
def Obligations.SpiReadCompletes : Prop :=
  ∀ (a : Byte) (n : Nat) (s : State), s.faults = 0 →
    (s.inTransaction = false → BusLive s → 1 ≤ n → n ≤ s.cfg.xbufLen → n + 3 ≤ s.quantum →
      exec (.spiRead a n) s = .next (s.readAll a n) ∧
      (s.readAll a n).hist = s.hist ++ [⟨a :: List.replicate n 0, misoOf s (a :: List.replicate n 0)⟩] ∧
      (s.readAll a n).cs = .released) ∧
    (n = 0 ∨ s.cfg.xbufLen < n → exec (.spiRead a n) s = .refused .readCount)

/-- R138: of the `1 + count` bytes shifted in, exactly the first is discarded and the others are kept in order; the bytes of
XBUF from `count` on keep their values (R33). -/
def Obligations.ReadDiscardsOneByte : Prop :=
  ∀ (a : Byte) (n : Nat) (s : State), s.faults = 0 → s.inTransaction = false → BusLive s →
    1 ≤ n → n ≤ s.cfg.xbufLen → s.xbuf.length = s.cfg.xbufLen → n + 3 ≤ s.quantum →
    ∃ t miso, exec (.spiRead a n) s = .next t ∧ t.hist = s.hist ++ [⟨a :: List.replicate n 0, miso⟩] ∧
      miso.length = n + 1 ∧
      (∀ i, i < n → t.xbuf[i]? = miso[i + 1]?) ∧ (∀ i, n ≤ i → t.xbuf[i]? = s.xbuf[i]?)

/-- What the transport leaves unchanged, also when it is held up halfway: a write touches CS, HIST and the transaction in
progress only (R133); a read also XBUF, whose bytes from `count` on keep their values (R137). SENSOR's, TICK's and the bus
hardware's own state may move on. -/
def Obligations.TransportFrame : Prop :=
  (∀ (c d : Byte) (s t : State), exec (.spiWrite c d) s = .next t →
    t = { s with
      cs := t.cs, hist := t.hist, bus := t.bus, ticks := t.ticks, busReady := t.busReady, sensor := t.sensor,
      agenda := t.agenda, draws := t.draws }) ∧
  (∀ (a : Byte) (n : Nat) (s t : State), exec (.spiRead a n) s = .next t →
    t = { s with
      xbuf := t.xbuf, cs := t.cs, hist := t.hist, bus := t.bus, ticks := t.ticks, busReady := t.busReady,
      sensor := t.sensor, agenda := t.agenda, draws := t.draws } ∧
    ∀ i, n ≤ i → n ≤ s.xbuf.length → t.xbuf[i]? = s.xbuf[i]?)

/-! ## INIT -/

/-- R27: exactly the codes 0x58 and 0x60 are recognised, as VARIANT_A and VARIANT_B. -/
def Obligations.IdentifiesTwoCodes : Prop :=
  ∀ id : Byte, (identify id = some .variantA ↔ id = 0x58) ∧ (identify id = some .variantB ↔ id = 0x60) ∧
    (identify id = none ↔ id ≠ 0x58 ∧ id ≠ 0x60)

/-- R151 to R153: INIT, run micro-step by micro-step on a live bus, does what its pseudocode says, whatever SENSOR answers. -/
def Obligations.InitCompletes : Prop :=
  ∀ s : State, Admits .uninit s → BusLive s → 37 ≤ s.quantum → exec .init s = .next s.initAll

/-- R151, R153: with a recognised code and the 24 bytes `block`, INIT returns OK, KIND and CAL are set and the block is READY. -/
def Obligations.InitLoadsCalibration : Prop :=
  ∀ (s : State) (x id y : Byte) (block rest : List Byte) (k : Kind),
    Admits .uninit s → BusLive s → 37 ≤ s.quantum → s.xbuf.length = s.cfg.xbufLen → s.cfg.wf = true →
    s.sensor = x :: id :: y :: (block ++ rest) → block.length = 24 → identify id = some k →
    ∃ t, exec .init s = .next t ∧ t.state = .ready ∧ t.kind = k ∧ t.cal = parseCal block ∧ t.busy = false ∧
      t.phase = .idle ∧ t.cmd = 0x01 ∧ t.results = s.results ++ [⟨.ok, none⟩] ∧ t.xbuf = block ++ s.xbuf.drop 24 ∧
      t.hist = s.hist ++ [⟨[s.cfg.regId, 0], [x, id]⟩,
        ⟨s.cfg.regCalib :: List.replicate 24 0, y :: block⟩]

/-- R152: with any other code INIT returns E_UNSUPPORTED, issues no calibration read and leaves CAL alone. -/
def Obligations.InitRejectsOtherCodes : Prop :=
  ∀ (s : State) (x id : Byte) (rest : List Byte),
    Admits .uninit s → BusLive s → 7 ≤ s.quantum → s.sensor = x :: id :: rest → id ≠ 0x58 → id ≠ 0x60 →
    ∃ t, exec .init s = .next t ∧ t.state = .unsupported ∧ t.kind = .unknown ∧ t.cal = s.cal ∧ t.busy = false ∧
      t.phase = .idle ∧ t.results = s.results ++ [⟨.eUnsupported, none⟩] ∧
      t.hist = s.hist ++ [⟨[s.cfg.regId, 0], [x, id]⟩]

/-- R42, row INIT: RAW, the fine temperatures, the results, the pairing flags and SETTLE_TARGET are unchanged, however far
INIT has come. -/
def Obligations.InitFrame : Prop :=
  ∀ s t : State, exec .init s = .next t →
    t = { s with
      state := t.state, kind := t.kind, busy := t.busy, cal := t.cal, xbuf := t.xbuf, cs := t.cs, hist := t.hist,
      phase := t.phase, cmd := t.cmd, faults := t.faults, bus := t.bus, ticks := t.ticks, busReady := t.busReady,
      sensor := t.sensor, results := t.results, agenda := t.agenda, draws := t.draws }

/-! ## SAMPLE and the temperature accessors -/

/-- R160 to R164: SAMPLE, on a live bus, with the ticks its SETTLE needs and a sensor that completes after `n` busy status
reads, does what its pseudocode says. -/
def Obligations.SampleCompletes : Prop :=
  ∀ (n : Nat) (s : State),
    s.faults = 0 → s.inTransaction = false → s.state = .ready → s.busy = true → BusLive s → TicksComing s →
    s.triggerAll.pollEnds n = true → 24 + 6 * n + s.cfg.settleTicks ≤ s.quantum →
      exec .sample s = .next (s.sampleAll n) ∧ (s.sampleAll n).state = .ready ∧
      (s.sampleAll n).raw = rawOfBytes (s.sampleAll n).xbuf ∧ (s.sampleAll n).hist.length = s.hist.length + n + 3

/-- R170: READ_T_INT samples, and then completes with COMP_T_INT's results in TFINE_I and RES_T_INT, paired, RES_T_INT
returned; where COMP_T_INT overflows it stops at COMPUTE and nothing of FXP is written. -/
def Obligations.ReadTIntCompletes : Prop :=
  ∀ (n : Nat) (s : State),
    Admits .ready s → BusLive s → TicksComing s → (s.admitted 0x10).triggerAll.pollEnds n = true →
    27 + 6 * n + s.cfg.settleTicks ≤ s.quantum →
    let s1 := (s.admitted 0x10).sampleAll n
    (∀ tFine t, compTInt s.cfg.overflowMode s1.raw.adcT s.cal.t1 s.cal.t2 s.cal.t3 = .ok (tFine, t) →
      exec .readTInt s = .next
        ({ s1 with tfineI := tFine, resTInt := t, pairedI := true, pairedF := false }.exit .ok (some (.s32 t)))) ∧
    (compTInt s.cfg.overflowMode s1.raw.adcT s.cal.t1 s.cal.t2 s.cal.t3 = .error .arithOverflow →
      exec .readTInt s = .next { s1 with phase := .compute, faults := 0x20 })

/-- R171: READ_T_FLT samples, and then completes with COMP_T_FLT's results in TFINE_F and RES_T_FLT, paired, RES_T_FLT
returned. -/
def Obligations.ReadTFltCompletes : Prop :=
  ∀ (n : Nat) (s : State),
    Admits .ready s → BusLive s → TicksComing s → (s.admitted 0x20).triggerAll.pollEnds n = true →
    27 + 6 * n + s.cfg.settleTicks ≤ s.quantum →
    let s1 := (s.admitted 0x20).sampleAll n
    ∀ tFine t, compTFlt s.cfg.floatTfineKind s1.raw.adcT s.cal.t1 s.cal.t2 s.cal.t3 = .ok (tFine, t) →
      exec .readTFlt s = .next
        ({ s1 with tfineF := tFine, resTFlt := t, pairedF := true, pairedI := false }.exit .ok (some (.f64 t)))

/-- R42, rows READ_T_INT and READ_T_FLT: KIND, CAL, the other family's fine temperature and result and both pressure results
are unchanged, however far the command has come. SAMPLE on its own (R160) writes STATE, RAW, SETTLE_TARGET, XBUF, CS, HIST and
PHASE. -/
def Obligations.MeasuringFrame : Prop :=
  (∀ s t : State, exec .sample s = .next t →
    t = { s with
      state := t.state, raw := t.raw, xbuf := t.xbuf, cs := t.cs, hist := t.hist, phase := t.phase,
      settleTarget := t.settleTarget, bus := t.bus, ticks := t.ticks, busReady := t.busReady,
      sensor := t.sensor, agenda := t.agenda, draws := t.draws }) ∧
  (∀ s t : State, exec .readTInt s = .next t →
    t = { s with
      state := t.state, busy := t.busy, raw := t.raw, tfineI := t.tfineI, resTInt := t.resTInt, pairedI := t.pairedI,
      pairedF := t.pairedF, xbuf := t.xbuf, cs := t.cs, hist := t.hist, phase := t.phase, cmd := t.cmd,
      settleTarget := t.settleTarget, faults := t.faults, bus := t.bus, ticks := t.ticks, busReady := t.busReady,
      sensor := t.sensor, results := t.results, agenda := t.agenda, draws := t.draws }) ∧
  (∀ s t : State, exec .readTFlt s = .next t →
    t = { s with
      state := t.state, busy := t.busy, raw := t.raw, tfineF := t.tfineF, resTFlt := t.resTFlt, pairedI := t.pairedI,
      pairedF := t.pairedF, xbuf := t.xbuf, cs := t.cs, hist := t.hist, phase := t.phase, cmd := t.cmd,
      settleTarget := t.settleTarget, faults := t.faults, bus := t.bus, ticks := t.ticks, busReady := t.busReady,
      sensor := t.sensor, results := t.results, agenda := t.agenda, draws := t.draws })

/-- R162: POLL has no bound: after any number `n` of busy answers SEQ has read the status register `n` times and polls on, STATE
is MEASURING, BUSY is 1 and nothing has been returned. -/
def Obligations.PollHasNoBound : Prop :=
  ∀ (n : Nat) (s : State),
    Admits .ready s → BusLive s → (s.admitted 0x10).triggerAll.pollBusy n = true → s.quantum = 6 + 6 * n →
    ∃ t, exec .readTInt s = .next t ∧ t.phase = .poll ∧ t.state = .measuring ∧ t.busy = true ∧
      t.results = s.results ∧ t.raw = s.raw ∧ t.hist.length = s.hist.length + 1 + n

/-- R141, R163, R281: a bus hold that is not lifted leaves the block stuck inside its transaction for ever, and so does a SETTLE
whose target is not reached where TICK never steps: after any number `n` of steps nothing of the block has changed. -/
def Obligations.HoldsWithoutEnd : Prop :=
  ∀ (sched : Nat → Turn) (n : Nat) (s : State), s.cfg.wf = true → s.faults = 0 → s.agenda = [] →
    (s.inTransaction = true → s.busReady = false →
      (∀ i, sched i = .seq ∨ sched i = .tick ∨ sched i = .bus false) →
      ∃ ticks, runUnder sched n s = some { s with ticks := ticks, turns := s.turns + n }) ∧
    (s.phase = .settle → s.bus = .idle → s.ticks < s.settleTarget →
      (∀ i, sched i = .seq ∨ ∃ b, sched i = .bus b) →
      ∃ ready, runUnder sched n s = some { s with busReady := ready, turns := s.turns + n })

/-- R163, R281: under TICK_FAIR SETTLE ends, wherever in the run the TICK steps come. No earlier than its target: while
SETTLE holds, only the tick count, the bus hardware's bit and the count of turns change. -/
def Obligations.SettleEndsUnderTickFair : Prop :=
  ∀ (sched : Nat → Turn) (s : State),
    s.cfg.wf = true → s.faults = 0 → s.agenda = [] → s.phase = .settle → s.bus = .idle → 1 ≤ s.quantum →
    (∀ i, sched i = .seq ∨ sched i = .tick ∨ ∃ b, sched i = .bus b) → TickFair sched → SeqFair sched →
      ∃ n t u,
        runUnder sched n s = some t ∧
        t = { s with ticks := t.ticks, busReady := t.busReady, turns := s.turns + n } ∧
        s.settleTarget ≤ t.ticks ∧
        runUnder sched (n + 1) s = some u ∧ u.phase ≠ .settle ∧ u.ticks = t.ticks ∧
        (s.quantum = 1 → u = { t with phase := .burst, turns := t.turns + 1 })

/-! ## The pressure accessors -/

/-- R172: a paired READ_P_INT completes with the pressure its variant computes from RAW, TFINE_I and CAL. -/
def Obligations.ReadPIntCompletes : Prop :=
  ∀ (s : State) (p : U32), Admits .ready s → s.pairedI = true → 2 ≤ s.quantum →
    compPInt s.cfg.pressureIntVariant s.cfg.overflowMode s.raw.adcP s.tfineI s.cal.pressure = .ok p →
    exec .readPInt s = .next { s with
      cmd := 0x11, busy := false, phase := .idle, bus := .idle, resPInt := p,
      results := s.results ++ [⟨.ok, some (.u32 p)⟩] }

/-- R173: a paired READ_P_FLT completes with the pressure COMP_P_FLT computes from RAW, TFINE_F and CAL; it never faults. -/
def Obligations.ReadPFltCompletes : Prop :=
  ∀ s : State, Admits .ready s → s.pairedF = true → 2 ≤ s.quantum →
    exec .readPFlt s = .next { s with
      cmd := 0x21, busy := false, phase := .idle, bus := .idle,
      resPFlt := compPFlt s.raw.adcP (tfineFValue s.tfineF) s.cal.pressure,
      results := s.results ++
        [⟨.ok, some (.f64 (compPFlt s.raw.adcP (tfineFValue s.tfineF) s.cal.pressure))⟩] }

/-- R42, rows READ_P_INT and READ_P_FLT: no bus activity, and only BUSY, CMD, PHASE, the accessor's own result, FAULTS and what
HOST receives change, however far the command has come. -/
def Obligations.ReadPressureFrame : Prop :=
  (∀ s t : State, exec .readPInt s = .next t →
    t = { s with
      busy := t.busy, cmd := t.cmd, phase := t.phase, resPInt := t.resPInt, faults := t.faults, bus := t.bus,
      results := t.results }) ∧
  (∀ s t : State, exec .readPFlt s = .next t →
    t = { s with
      busy := t.busy, cmd := t.cmd, phase := t.phase, resPFlt := t.resPFlt, faults := t.faults, bus := t.bus,
      results := t.results })

/-- R175: a second pressure read of the same family returns the same value as the first, reads the same RAW, fine temperature
and CAL, and does not consume the pairing. -/
def Obligations.PressureReadsRepeat : Prop :=
  ∀ s : State, Admits .ready s → 2 ≤ s.quantum →
    (∀ p, s.pairedI = true →
      compPInt s.cfg.pressureIntVariant s.cfg.overflowMode s.raw.adcP s.tfineI s.cal.pressure = .ok p →
      ∃ t u, exec .readPInt s = .next t ∧ exec .readPInt t = .next u ∧
        t.resPInt = p ∧ u.resPInt = p ∧ t.results = s.results ++ [⟨.ok, some (.u32 p)⟩] ∧
        u.results = s.results ++ [⟨.ok, some (.u32 p)⟩, ⟨.ok, some (.u32 p)⟩] ∧
        u.raw = s.raw ∧ u.tfineI = s.tfineI ∧ u.cal = s.cal ∧ u.pairedI = true ∧ u.hist = s.hist) ∧
    (s.pairedF = true →
      ∃ p t u, exec .readPFlt s = .next t ∧ exec .readPFlt t = .next u ∧
        t.resPFlt = p ∧ u.resPFlt = p ∧ t.results = s.results ++ [⟨.ok, some (.f64 p)⟩] ∧
        u.results = s.results ++ [⟨.ok, some (.f64 p)⟩, ⟨.ok, some (.f64 p)⟩] ∧
        u.raw = s.raw ∧ u.tfineF = s.tfineF ∧ u.cal = s.cal ∧ u.pairedF = true ∧ u.hist = s.hist)

/-! ## The parser and the unpacker -/

/-- R100, R101, R154: CAL_PARSE completes on every 24 bytes; each field is its two bytes, the low byte at the lower offset,
read unsigned for T1 and P1 and as two's complement for the others. -/
def Obligations.CalParseCompletes : Prop :=
  ∀ (b : List Byte) (s : State), s.faults = 0 → b.length = 24 →
    ∃ c, exec (.calParse b) s = .next { s with opResult := some (.cal c) } ∧
      (let u (k : Nat) : Int := (b.getD (2 * k) 0).toNat + 256 * (b.getD (2 * k + 1) 0).toNat
       let sg (k : Nat) : Int := if u k < 32768 then u k else u k - 65536
       c.t1.toNat = u 0 ∧ c.t2.toInt = sg 1 ∧ c.t3.toInt = sg 2 ∧ c.p1.toNat = u 3 ∧ c.p2.toInt = sg 4 ∧
       c.p3.toInt = sg 5 ∧ c.p4.toInt = sg 6 ∧ c.p5.toInt = sg 7 ∧ c.p6.toInt = sg 8 ∧ c.p7.toInt = sg 9 ∧
       c.p8.toInt = sg 10 ∧ c.p9.toInt = sg 11)

/-- R103, R165: RAW_UNPACK completes on every 6 bytes; each raw value is its first byte times 4096, its second times 16 and the
high nibble of its third, and lies in `[0, 2^20)`. -/
def Obligations.RawUnpackCompletes : Prop :=
  ∀ (r0 r1 r2 r3 r4 r5 : Byte) (s : State), s.faults = 0 →
    ∃ p t : S32, exec (.rawUnpack [r0, r1, r2, r3, r4, r5]) s = .next { s with opResult := some (.raw p t) } ∧
      p.toInt = r0.toNat * 4096 + r1.toNat * 16 + r2.toNat / 16 ∧
      t.toInt = r3.toNat * 4096 + r4.toNat * 16 + r5.toNat / 16 ∧
      adcInRange p = true ∧ adcInRange t = true

/-! ## The fixed-point pipeline -/

/-- R197: COMP_T_INT completes, in both modes, with the values of its formula where the three products that can leave s32 stay
in it; no other result of its lines can leave s32 then. -/
def Obligations.CompTIntFormula : Prop :=
  ∀ (adcT : S32) (t1 : U16) (t2 t3 : S16) (s : State), s.faults = 0 → adcInRange adcT = true →
    let v1b : Int := (asr adcT.toInt 3 - 2 * t1.toNat) * t2.toInt
    let v2a : Int := asr adcT.toInt 4 - t1.toNat
    let v2d : Int := asr (v2a * v2a) 12 * t3.toInt
    let tFine : Int := asr v1b 11 + asr v2d 14
    inS32 v1b = true → inS32 (v2a * v2a) = true → inS32 v2d = true →
      exec (.compTInt adcT t1 t2 t3) s =
        .next { s with
          opResult := some (.tempInt (BitVec.ofInt 32 tFine) (BitVec.ofInt 32 (asr (tFine * 5 + 128) 8))) }

/-- R192, R197 to R200, R250: each integer operation completes, in both modes, with the exact value of its lines (0 where the
guarded denominator is 0) where every checked line's exact value is in range; in FAULT mode it raises ARITH_OVERFLOW exactly
where some line's is not, and writes nothing else. In WRAP mode it completes whatever the operands, and FAULT mode's value, where
there is one, is that same value. -/
def Obligations.IntegerOpsAnswerOrOverflow : Prop :=
  ∀ (s : State) (adc tFine : S32) (t1 : U16) (t2 t3 : S16) (c : PressureCoeffs), s.faults = 0 →
    ∀ p ∈ [(Instr.compTInt adc t1 t2 t3, (exactTInt adc t1 t2 t3).1,
          OpResult.tempInt (BitVec.ofInt 32 (exactTInt adc t1 t2 t3).2.1) (BitVec.ofInt 32 (exactTInt adc t1 t2 t3).2.2)),
        (.compPInt32 adc tFine c, (exactPInt32 adc tFine c).1, .pressInt (BitVec.ofInt 32 (exactPInt32 adc tFine c).2)),
        (.compPInt64 adc tFine c, (exactPInt64 adc tFine c).1, .pressInt (BitVec.ofInt 32 (exactPInt64 adc tFine c).2))],
      let w : State := { s with cfg := { s.cfg with overflowMode := .wrap } }
      (p.2.1 = true → exec p.1 s = .next { s with opResult := some p.2.2 }) ∧
      (p.2.1 = false → s.cfg.overflowMode = .fault → exec p.1 s = .next { s with faults := 0x20 }) ∧
      ∃ v, exec p.1 w = .next { w with opResult := some v } ∧
        (exec p.1 s = .next { s with opResult := some v } ∨
          (s.cfg.overflowMode = .fault ∧ p.2.1 = false ∧ exec p.1 s = .next { s with faults := 0x20 }))

/-- R192, R197: in WRAP mode COMP_T_INT completes with what 32-bit two's-complement hardware computes. -/
def Obligations.CompTIntWrapIsMachineArithmetic : Prop :=
  ∀ (adcT : S32) (t1 : U16) (t2 t3 : S16) (s : State), s.faults = 0 → s.cfg.overflowMode = .wrap →
    exec (.compTInt adcT t1 t2 t3) s =
      .next { s with opResult := some (.tempInt (wordTInt adcT t1 t2 t3).1 (wordTInt adcT t1 t2 t3).2) }

/-- R192, R198: in WRAP mode COMP_P_INT32 completes with what 32-bit two's-complement hardware computes. -/
def Obligations.CompPInt32WrapIsMachineArithmetic : Prop :=
  ∀ (adcP tFine : S32) (c : PressureCoeffs) (s : State), s.faults = 0 → s.cfg.overflowMode = .wrap →
    exec (.compPInt32 adcP tFine c) s = .next { s with opResult := some (.pressInt (wordPInt32 adcP tFine c)) }

/-- R192, R199: in WRAP mode COMP_P_INT64 completes with what 64-bit two's-complement hardware computes. -/
def Obligations.CompPInt64WrapIsMachineArithmetic : Prop :=
  ∀ (adcP tFine : S32) (c : PressureCoeffs) (s : State), s.faults = 0 → s.cfg.overflowMode = .wrap →
    exec (.compPInt64 adcP tFine c) s = .next { s with opResult := some (.pressInt (wordPInt64 adcP tFine c)) }

/-- R200, C4: with P1 = 0 both integer pressure operations complete with 0 wherever the lines before the guard give a value, which
they do unless, in FAULT mode, a checkpoint among them overflows; then the operation raises ARITH_OVERFLOW. -/
def Obligations.ZeroP1GivesZeroPressure : Prop :=
  ∀ (adcP tFine : S32) (c : PressureCoeffs) (s : State), s.faults = 0 → c.p1 = 0 →
    ∀ p ∈ [(Instr.compPInt32 adcP tFine c, pInt32Head s.cfg.overflowMode tFine.toInt c, (exactPInt32Head tFine c).1),
        (Instr.compPInt64 adcP tFine c, pInt64Head s.cfg.overflowMode tFine.toInt c, (exactPInt64Head tFine c).1)],
      (∀ v, p.2.1 = .ok v → exec p.1 s = .next { s with opResult := some (.pressInt 0) }) ∧
      (p.2.1 = .error .arithOverflow → exec p.1 s = .next { s with faults := 0x20 }) ∧
      (p.2.2 = true ∨ s.cfg.overflowMode = .wrap → ∃ v, p.2.1 = .ok v) ∧
      (p.2.2 = false → s.cfg.overflowMode = .fault → p.2.1 = .error .arithOverflow)

/-- R198: in FAULT mode COMP_P_INT32 overflows for every calibration set when t_fine is outside `[-242720, 498727]`, and the
checkpoint q never overflows inside it. -/
def Obligations.CompPInt32OverflowWindow : Prop :=
  ∀ (adcP tFine : S32) (c : PressureCoeffs) (s : State), s.faults = 0 → s.cfg.overflowMode = .fault →
    ((tFine.toInt < -242720 ∨ 498727 < tFine.toInt) →
      exec (.compPInt32 adcP tFine c) s = .next { s with faults := 0x20 }) ∧
    (-242720 ≤ tFine.toInt → tFine.toInt ≤ 498727 →
      let h := asr (asr tFine.toInt 1 - 64000) 2
      inS32 (asr tFine.toInt 1 - 64000) = true ∧ inS32 (h * h) = true)

/-- R203, R199: with CAL-1, COMP_T_INT overflows for no raw value, and COMP_P_INT64 for no raw pressure and no fine temperature
that COMP_T_INT gives: both complete, in both modes, with the exact value of their lines. -/
def Obligations.Cal1NeverOverflows : Prop :=
  ∀ (adcT adcP : S32) (s : State), s.faults = 0 → adcInRange adcT = true → adcInRange adcP = true →
    let c : PressureCoeffs := ⟨36477, -10685, 3024, 2855, 140, -7, 15500, -14600, 6000⟩
    ∃ tFine t : S32,
      tFine.toInt = (exactTInt adcT 27504 26435 (-1000)).2.1 ∧ t.toInt = (exactTInt adcT 27504 26435 (-1000)).2.2 ∧
      exec (.compTInt adcT 27504 26435 (-1000)) s = .next { s with opResult := some (.tempInt tFine t) } ∧
      exec (.compPInt64 adcP tFine c) s =
        .next { s with opResult := some (.pressInt (BitVec.ofInt 32 (exactPInt64 adcP tFine c).2)) }

/-! ## The floating-point converter -/

/-- R13: every integer of magnitude below 2^53 is converted to binary64 exactly: the result is finite and its value is that
integer; converting back gives it too (R221). -/
def Obligations.IntegersConvertExactly : Prop :=
  ∀ n : Int, n.natAbs < 2 ^ 53 →
    f64Exp (f64OfInt n) ≠ 2047 ∧ f64Value (f64OfInt n) = n ∧ f64TruncInt (f64OfInt n) = n ∧
    (-2 ^ 31 ≤ n → n < 2 ^ 31 → truncS32 (f64OfInt n) = .ok (BitVec.ofInt 32 n))

/-- R223, R227: COMP_T_FLT completes for every raw value and calibration set, in both kinds: ARITH_DOMAIN is not reachable.
T is the rounded quotient of the sum by 5120 in both kinds (R224). -/
def Obligations.CompTFltNeverFaults : Prop :=
  ∀ (adcT : S32) (t1 : U16) (t2 t3 : S16) (s : State), s.faults = 0 → adcInRange adcT = true →
    ∃ tf, exec (.compTFlt adcT t1 t2 t3) s =
      .next { s with opResult := some (.tempFlt tf (f64Div (tFltSum adcT t1 t2 t3) (f64OfInt 5120))) } ∧
      (s.cfg.floatTfineKind = .binary64 → tf = .f64 (tFltSum adcT t1 t2 t3)) ∧
      (s.cfg.floatTfineKind = .truncS32 →
        tf = .s32 (BitVec.ofInt 32 (f64TruncInt (tFltSum adcT t1 t2 t3))))

/-- R225, R226: COMP_P_FLT always completes; where the computed denominator is +0.0 or -0.0 the result is +0.0, else the lines
after the guard give it. -/
def Obligations.CompPFltCompletes : Prop :=
  ∀ (adcP : S32) (tf : F64) (c : PressureCoeffs) (s : State), s.faults = 0 →
    exec (.compPFlt adcP tf c) s =
      .next { s with opResult := some (.pressFlt
        (if (pFltDenominator tf c).toNat % 2 ^ 63 = 0 then 0x0000000000000000
         else pFltTail adcP (pFltDenominator tf c) (pFltVar2 tf c) c)) }

/-- R226: P1 = 0 always gives exactly +0.0, for every fine temperature TFINE_F can hold, of either kind (R224): every s32, and
every finite binary64 number of magnitude at most `2^22` (R227). -/
def Obligations.ZeroP1GivesPositiveZero : Prop :=
  ∀ (adcP : S32) (tf : TfineF) (c : PressureCoeffs) (s : State), s.faults = 0 → c.p1 = 0 → TfineFBounded tf →
    exec (.compPFlt adcP (tfineFValue tf) c) s = .next { s with opResult := some (.pressFlt 0) }

/-! ## Whole-machine rules -/

/-- R39, R35, R272: no step clears a fault bit, HIST only grows and the configuration is fixed, reset included; what HOST has
received is not taken back. -/
def Obligations.FaultsStickHistoryGrows : Prop :=
  ∀ s t : State, step s = .next t →
    s.faults &&& t.faults = s.faults ∧ s.hist <+: t.hist ∧ t.cfg = s.cfg ∧ s.results <+: t.results

/-- R24, R284: once INIT has ended, no step but a RESET changes CAL. -/
def Obligations.CalibrationIsImmutable : Prop :=
  ∀ s t : State, Inv s → s.state ≠ .uninit → s.upNext ≠ .reset → step s = .next t → t.cal = s.cal

/-- R28 to R32: outside a RESET, each fine temperature, each result register and each pairing flag changes only under the
accessor it belongs to. -/
def Obligations.OnlyItsAccessorWrites : Prop :=
  ∀ s t : State, s.upNext ≠ .reset → step s = .next t →
    (t.tfineI ≠ s.tfineI ∨ t.resTInt ≠ s.resTInt → t.cmd = 0x10) ∧
    (t.tfineF ≠ s.tfineF ∨ t.resTFlt ≠ s.resTFlt → t.cmd = 0x20) ∧
    (t.resPInt ≠ s.resPInt → t.cmd = 0x11) ∧
    (t.resPFlt ≠ s.resPFlt → t.cmd = 0x21) ∧
    (t.pairedI = true → s.pairedI = false → t.cmd = 0x10 ∧ t.pairedF = false) ∧
    (t.pairedF = true → s.pairedF = false → t.cmd = 0x20 ∧ t.pairedI = false) ∧
    (t.pairedI = false → s.pairedI = true → t.cmd = 0x20) ∧
    (t.pairedF = false → s.pairedF = true → t.cmd = 0x10)

/-- R20: the driver state's only transitions. An UNSUPPORTED block stays so until a RESET; a step may take several. -/
def Obligations.DriverStateTransitions : Prop :=
  ∀ s t : State, Inv s → step s = .next t →
    (s.upNext = .reset ∧ t.state = .uninit) ∨ t.state = s.state ∨
    (s.state = .uninit ∧ (t.state = .unsupported ∨ t.state = .ready)) ∨
    (s.state = .ready ∧ t.state = .measuring) ∨ (s.state = .measuring ∧ t.state = .ready)
end

