-- ==== Sys2Proof/Laws/Binary64.lean ====
section
/-!
SUPPORT. Bounds on binary64 magnitudes: each operation's result is at most the power of two that bounds the exact result
(R227), so nothing near infinity is met on bounded operands; and the numbers that are rounded to themselves (R13).
-/

namespace Sys2Proof.Machine

/-- The magnitude bits. -/
def f64Mag (x : F64) : Nat := x.toNat % 2 ^ 63

/-- The magnitude of a finite number, exactly. -/
def f64Abs (x : F64) : ℚ := (f64Sig x : ℚ) * 2 ^ f64Pow x

/-- `|x| <= 2 ^ K`, on the magnitude bits, for a normal power of two. -/
def f64Le (x : F64) (K : Int) : Prop := -1022 ≤ K ∧ K ≤ 1022 ∧ (f64Mag x : Int) ≤ (K + 1023) * 2 ^ 52

theorem roundShift_le (m k n : Nat) (sticky : Bool) (h : m < 2 ^ (n + k)) : roundShift m k sticky ≤ 2 ^ n := by
  have hd : m / 2 ^ k < 2 ^ n := by
    rw [Nat.div_lt_iff_lt_mul (by positivity), ← pow_add]; exact h
  unfold roundShift
  split
  · rename_i hk; subst hk; simpa using h.le
  · split <;> omega

theorem roundShift_pow (L k : Nat) (h : k ≤ L) : roundShift (2 ^ L) k false = 2 ^ (L - k) := by
  unfold roundShift
  have hm : 2 ^ L % 2 ^ k = 0 := Nat.mod_eq_zero_of_dvd (pow_dvd_pow 2 h)
  have hd : 2 ^ L / 2 ^ k = 2 ^ (L - k) := Nat.pow_div h (by omega)
  split
  · rename_i hk; subst hk; simp
  · have : (0 : Nat) < 2 ^ (k - 1) := by positivity
    rw [hm, hd, if_neg]
    rintro (h | ⟨h, -⟩) <;> omega

/-- Rounding does not pass a power of two. -/
theorem roundBits_le (m : Nat) (e K : Int) (hK : -1022 ≤ K) (h : (m : ℚ) * 2 ^ e ≤ 2 ^ K) :
    (roundBits m e false : Int) ≤ (K + 1023) * 2 ^ 52 := by
  unfold roundBits
  split
  · norm_num; nlinarith
  rename_i hm
  have h1 : 2 ^ m.log2 ≤ m := Nat.log2_self_le hm
  have h2 : m < 2 ^ (m.log2 + 1) := Nat.lt_log2_self
  have hL : (m.log2 : Int) + e ≤ K := by
    have : (2 : ℚ) ^ ((m.log2 : Int) + e) ≤ 2 ^ K := by
      rw [zpow_add₀ (by norm_num)]
      refine le_trans ?_ h
      gcongr
      exact_mod_cast h1
    exact (zpow_le_zpow_iff_right₀ (by norm_num)).mp this
  have hmin : ∀ x : Nat, (x : Int) ≤ (K + 1023) * 2 ^ 52 → ((min f64InfBits x : Nat) : Int) ≤ (K + 1023) * 2 ^ 52 :=
    fun x hx => le_trans (by exact_mod_cast Nat.min_le_right _ _) hx
  apply hmin
  rcases Int.lt_or_eq_of_le hL with hlt | heq
  · -- below the power of two
    by_cases hp : e + (m.log2 : Int) - 52 < -1074
    · have hr : roundPow m e = -1074 := by unfold roundPow; omega
      have hs : roundShift (m * 2 ^ (e - roundPow m e).toNat) (roundPow m e - e).toNat false ≤ 2 ^ 52 := by
        apply roundShift_le
        calc m * 2 ^ (e - roundPow m e).toNat < 2 ^ (m.log2 + 1) * 2 ^ (e - roundPow m e).toNat := by gcongr
          _ = 2 ^ (m.log2 + 1 + (e - roundPow m e).toNat) := (pow_add _ _ _).symm
          _ ≤ 2 ^ (52 + (roundPow m e - e).toNat) := Nat.pow_le_pow_right (by norm_num) (by omega)
      rw [hr] at hs ⊢
      push_cast at hs ⊢
      have hs' : ((roundShift (m * 2 ^ (e - -1074).toNat) (-1074 - e).toNat false : Nat) : Int) ≤ 2 ^ 52 := by
        exact_mod_cast hs
      norm_num at hs' ⊢
      nlinarith
    · have hr : roundPow m e = e + m.log2 - 52 := by unfold roundPow; omega
      have hs : roundShift (m * 2 ^ (e - roundPow m e).toNat) (roundPow m e - e).toNat false ≤ 2 ^ 53 := by
        apply roundShift_le
        calc m * 2 ^ (e - roundPow m e).toNat < 2 ^ (m.log2 + 1) * 2 ^ (e - roundPow m e).toNat := by gcongr
          _ = 2 ^ (m.log2 + 1 + (e - roundPow m e).toNat) := (pow_add _ _ _).symm
          _ ≤ 2 ^ (53 + (roundPow m e - e).toNat) := Nat.pow_le_pow_right (by norm_num) (by omega)
      have hs' : ((roundShift (m * 2 ^ (e - roundPow m e).toNat) (roundPow m e - e).toNat false : Nat) : Int)
          ≤ 2 ^ 53 := by exact_mod_cast hs
      generalize roundShift _ _ _ = x at hs'
      obtain ⟨y, hy⟩ : ∃ y : Nat, (roundPow m e + 1074).toNat = y := ⟨_, rfl⟩
      have hy' : (y : Int) = e + m.log2 + 1022 := by omega
      rw [hy]
      push_cast
      rw [hy']
      norm_num at hs' ⊢
      linarith
  · -- the power of two itself
    have hmeq : m = 2 ^ m.log2 := by
      apply le_antisymm _ h1
      have : (m : ℚ) * 2 ^ e ≤ 2 ^ m.log2 * 2 ^ e := by
        rw [← heq, zpow_add₀ (by norm_num)] at h
        exact_mod_cast h
      have := le_of_mul_le_mul_right this (by positivity)
      exact_mod_cast this
    have hr : roundPow m e = K - 52 := by unfold roundPow; omega
    have hs : roundShift (m * 2 ^ (e - roundPow m e).toNat) (roundPow m e - e).toNat false = 2 ^ 52 := by
      rw [show m * 2 ^ (e - roundPow m e).toNat = 2 ^ (m.log2 + (e - roundPow m e).toNat) by
        rw [pow_add, ← hmeq], roundShift_pow _ _ (by omega)]
      congr 1
      omega
    rw [hs, hr]
    obtain ⟨y, hy⟩ : ∃ y : Nat, (K - 52 + 1074).toNat = y := ⟨_, rfl⟩
    have hy' : (y : Int) = K + 1022 := by omega
    rw [hy]
    push_cast
    rw [hy']
    linarith

theorem f64Mag_round (neg : Bool) (m : Nat) (e : Int) (sticky : Bool) :
    f64Mag (f64Round neg m e sticky) = roundBits m e sticky := by
  have h : roundBits m e sticky ≤ f64InfBits := by
    unfold roundBits
    split
    · exact Nat.zero_le _
    · exact Nat.min_le_left _ _
  have hi : f64InfBits = 9218868437227405312 := rfl
  unfold f64Mag f64Round f64Pack
  cases neg <;> simp [BitVec.toNat_ofNat] <;> omega

theorem f64Round_le (neg : Bool) (m : Nat) (e K : Int) (h0 : -1022 ≤ K) (h1 : K ≤ 1022) (h : (m : ℚ) * 2 ^ e ≤ 2 ^ K) :
    f64Le (f64Round neg m e false) K := ⟨h0, h1, by rw [f64Mag_round]; exact roundBits_le m e K h0 h⟩

/-- A bounded number is finite. -/
theorem f64Le_finite {x : F64} {K : Int} (h : f64Le x K) : f64Exp x < 2047 := by
  obtain ⟨h0, h1, h2⟩ := h
  unfold f64Mag at h2
  unfold f64Exp
  have : x.toNat % 2 ^ 63 < 2047 * 2 ^ 52 := by
    have : ((x.toNat % 2 ^ 63 : Nat) : Int) < 2047 * 2 ^ 52 := by nlinarith
    exact_mod_cast this
  omega

theorem f64Le_notNaN {x : F64} {K : Int} (h : f64Le x K) : f64IsNaN x = false := by
  have := f64Le_finite h
  simp [f64IsNaN]
  omega

theorem f64Le_notInf {x : F64} {K : Int} (h : f64Le x K) : f64IsInf x = false := by
  have := f64Le_finite h
  simp [f64IsInf]
  omega

/-- The bound on the bits bounds the exact magnitude. -/
theorem f64Abs_le {x : F64} {K : Int} (h : f64Le x K) : f64Abs x ≤ 2 ^ K := by
  obtain ⟨h0, h1, h2⟩ := h
  have hm : f64Mag x = f64Exp x * 2 ^ 52 + f64Frac x := by unfold f64Mag f64Exp f64Frac; omega
  have hf : f64Frac x < 2 ^ 52 := Nat.mod_lt _ (by norm_num)
  have he : (f64Exp x : Int) < K + 1023 ∨ ((f64Exp x : Int) = K + 1023 ∧ f64Frac x = 0) := by
    rw [hm] at h2
    push_cast at h2
    have hf' : (f64Frac x : Int) < 2 ^ 52 := by exact_mod_cast hf
    have : (f64Exp x : Int) ≤ K + 1023 := by
      by_contra hc
      nlinarith [show (0 : Int) ≤ f64Frac x from Int.natCast_nonneg _]
    rcases Int.lt_or_eq_of_le this with h | h
    · exact .inl h
    · refine .inr ⟨h, ?_⟩
      rw [h] at h2
      omega
  unfold f64Abs f64Sig f64Pow
  split
  · calc ((f64Frac x : Nat) : ℚ) * 2 ^ (-1074 : Int) ≤ 2 ^ (52 : Int) * 2 ^ (-1074 : Int) := by
          gcongr
          exact_mod_cast hf.le
      _ = 2 ^ (-1022 : Int) := by rw [← zpow_add₀ (by norm_num)]; norm_num
      _ ≤ 2 ^ K := zpow_le_zpow_right₀ (by norm_num) h0
  · rcases he with he | ⟨he, hz⟩
    · calc ((2 ^ 52 + f64Frac x : Nat) : ℚ) * 2 ^ ((f64Exp x : Int) - 1075)
          ≤ 2 ^ (53 : Int) * 2 ^ ((f64Exp x : Int) - 1075) := by
            gcongr
            have : (2 ^ 52 + f64Frac x : Nat) ≤ 2 ^ 53 := by omega
            exact_mod_cast this
        _ = 2 ^ (53 + ((f64Exp x : Int) - 1075)) := by rw [← zpow_add₀ (by norm_num)]
        _ ≤ 2 ^ K := zpow_le_zpow_right₀ (by norm_num) (by omega)
    · rw [hz, he]
      calc ((2 ^ 52 + 0 : Nat) : ℚ) * 2 ^ (K + 1023 - 1075) = 2 ^ (52 : Int) * 2 ^ (K + 1023 - 1075) := by norm_num
        _ = 2 ^ (52 + (K + 1023 - 1075)) := by rw [← zpow_add₀ (by norm_num)]
        _ ≤ 2 ^ K := by rw [show 52 + (K + 1023 - 1075) = K by ring]

/-- R13: an integer of magnitude at most `2 ^ K`. -/
theorem f64OfInt_le (n : Int) (K : Nat) (hK : K ≤ 1022) (h : n.natAbs ≤ 2 ^ K) : f64Le (f64OfInt n) K := by
  apply f64Round_le _ _ _ _ (by omega) (by omega)
  simp only [zpow_zero, mul_one, zpow_natCast]
  exact_mod_cast h

/-- A product of bounded numbers. -/
theorem f64Mul_le {a b : F64} {A B : Int} (ha : f64Le a A) (hb : f64Le b B) (h0 : -1022 ≤ A + B) (h1 : A + B ≤ 1022) :
    f64Le (f64Mul a b) (A + B) := by
  unfold f64Mul
  rw [f64Le_notNaN ha, f64Le_notNaN hb, f64Le_notInf ha, f64Le_notInf hb]
  simp only [Bool.or_self, Bool.false_eq_true, if_false]
  apply f64Round_le _ _ _ _ h0 h1
  have h := mul_le_mul (f64Abs_le ha) (f64Abs_le hb) (by unfold f64Abs; positivity) (by positivity)
  rw [← zpow_add₀ (by norm_num)] at h
  refine le_trans (le_of_eq ?_) h
  unfold f64Abs
  rw [zpow_add₀ (by norm_num)]
  push_cast
  ring

theorem f64Scaled_natAbs (x : F64) (e : Int) (he : e ≤ f64Pow x) :
    ((f64Scaled x e).natAbs : ℚ) * 2 ^ e = f64Abs x := by
  have hn : (f64Scaled x e).natAbs = f64Sig x * 2 ^ (f64Pow x - e).toNat := by
    unfold f64Scaled
    split <;> simp [Int.natAbs_mul, Int.natAbs_pow]
  rw [hn]
  unfold f64Abs
  push_cast
  rw [mul_assoc, ← zpow_natCast, ← zpow_add₀ (by norm_num)]
  congr 2
  omega

/-- A sum of bounded numbers. -/
theorem f64Add_le {a b : F64} {A B K : Int} (ha : f64Le a A) (hb : f64Le b B) (hA : A < K) (hB : B < K) (hK : K ≤ 1022) :
    f64Le (f64Add a b) K := by
  unfold f64Add
  rw [f64Le_notNaN ha, f64Le_notNaN hb, f64Le_notInf ha, f64Le_notInf hb]
  simp only [Bool.or_self, Bool.false_eq_true, if_false]
  have hK0 : -1022 ≤ K := by have := ha.1; omega
  unfold f64AddFinite
  simp only []
  split
  · refine ⟨hK0, hK, ?_⟩
    have : f64Mag (f64Zero (a.msb && b.msb)) = 0 := by cases (a.msb && b.msb) <;> rfl
    rw [this]
    have : (0 : Int) ≤ (K + 1023) * 2 ^ 52 := by nlinarith
    simpa using this
  · apply f64Round_le _ _ _ _ hK0 hK
    set e := min (f64Pow a) (f64Pow b) with he
    have hx := f64Scaled_natAbs a e (by omega)
    have hy := f64Scaled_natAbs b e (by omega)
    have hs : ((f64Scaled a e + f64Scaled b e).natAbs : ℚ) ≤ (f64Scaled a e).natAbs + (f64Scaled b e).natAbs := by
      exact_mod_cast Int.natAbs_add_le _ _
    calc ((f64Scaled a e + f64Scaled b e).natAbs : ℚ) * 2 ^ e
        ≤ ((f64Scaled a e).natAbs + (f64Scaled b e).natAbs) * 2 ^ e := by gcongr
      _ = f64Abs a + f64Abs b := by rw [add_mul, hx, hy]
      _ ≤ 2 ^ (K - 1) + 2 ^ (K - 1) := by
          refine add_le_add ((f64Abs_le ha).trans ?_) ((f64Abs_le hb).trans ?_) <;>
            exact zpow_le_zpow_right₀ (by norm_num) (by omega)
      _ = 2 ^ K := by rw [← two_mul, ← zpow_one_add₀ (by norm_num)]; congr 1; ring

theorem f64Neg_le {x : F64} {K : Int} (h : f64Le x K) : f64Le (f64Neg x) K := by
  refine ⟨h.1, h.2.1, ?_⟩
  have : f64Mag (f64Neg x) = f64Mag x := by
    unfold f64Mag f64Neg
    have h63 : ∀ y : F64, y.toNat % 2 ^ 63 = (y.extractLsb' 0 63).toNat := by intro y; simp
    rw [h63, h63]
    congr 1
    ext i hi
    simp only [BitVec.getElem_extractLsb', Nat.zero_add, BitVec.getLsbD_xor]
    rw [show (1#64 <<< 63).getLsbD i = false by
      simp only [BitVec.getLsbD_shiftLeft]
      simp [hi]]
    simp
  rw [this]
  exact h.2.2

/-- A difference of bounded numbers. -/
theorem f64Sub_le {a b : F64} {A B K : Int} (ha : f64Le a A) (hb : f64Le b B) (hA : A < K) (hB : B < K) (hK : K ≤ 1022) :
    f64Le (f64Sub a b) K := f64Add_le ha (f64Neg_le hb) hA hB hK

/-- A power of two, on its fields. -/
structure IsPow2 (b : F64) (j : Int) : Prop where
  sig : f64Sig b = 2 ^ 52
  pow : f64Pow b = j - 52
  exp : f64Exp b < 2047

/-- A quotient by a power of two. -/
theorem f64Div_le {a b : F64} {A j : Int} (ha : f64Le a A) (hb : IsPow2 b j) (h0 : -1022 ≤ A - j) (h1 : A - j ≤ 1022) :
    f64Le (f64Div a b) (A - j) := by
  have hbn : f64IsNaN b = false := by have := hb.exp; simp [f64IsNaN]; omega
  have hbi : f64IsInf b = false := by have := hb.exp; simp [f64IsInf]; omega
  have hbz : f64IsZero b = false := by
    have h := hb.sig
    simp only [f64IsZero, beq_eq_false_iff_ne]
    intro hz
    have h0 : f64Exp b = 0 := by unfold f64Exp; omega
    have h1 : f64Frac b = 0 := by unfold f64Frac; omega
    simp [f64Sig, h0, h1] at h
  unfold f64Div
  rw [f64Le_notNaN ha, hbn, f64Le_notInf ha, hbi, hbz]
  simp only [Bool.or_self, Bool.false_eq_true, if_false]
  unfold f64DivFinite
  have hm : f64Sig a * 2 ^ 120 = f64Sig a * 2 ^ 68 * 2 ^ 52 := by ring
  rw [hb.sig, hm, Nat.mul_mod_left, Nat.mul_div_cancel _ (by norm_num)]
  simp only [bne_self_eq_false]
  apply f64Round_le _ _ _ _ h0 h1
  have h := f64Abs_le ha
  have hp : f64Pow a - f64Pow b - 120 = f64Pow a - j - 68 := by rw [hb.pow]; ring
  rw [hp]
  calc ((f64Sig a * 2 ^ 68 : Nat) : ℚ) * 2 ^ (f64Pow a - j - 68)
      = f64Abs a * 2 ^ (-j) := by
        unfold f64Abs
        push_cast
        rw [show (295147905179352825856 : ℚ) = 2 ^ (68 : Int) by norm_num, mul_assoc, mul_assoc, ← zpow_add₀ (by norm_num),
          ← zpow_add₀ (by norm_num)]
        congr 2
        ring
    _ ≤ 2 ^ A * 2 ^ (-j) := by gcongr
    _ = 2 ^ (A - j) := by rw [← zpow_add₀ (by norm_num)]; rfl

/-- A sum of bounded numbers of opposite signs does not pass their bound. -/
theorem f64Add_le_of_msb_ne {a b : F64} {K : Int} (ha : f64Le a K) (hb : f64Le b K) (hs : a.msb ≠ b.msb) :
    f64Le (f64Add a b) K := by
  unfold f64Add
  rw [f64Le_notNaN ha, f64Le_notNaN hb, f64Le_notInf ha, f64Le_notInf hb]
  simp only [Bool.or_self, Bool.false_eq_true, if_false]
  unfold f64AddFinite
  simp only []
  split
  · refine ⟨ha.1, ha.2.1, ?_⟩
    have : f64Mag (f64Zero (a.msb && b.msb)) = 0 := by cases (a.msb && b.msb) <;> rfl
    rw [this]
    have : (0 : Int) ≤ (K + 1023) * 2 ^ 52 := by have := ha.1; nlinarith
    simpa using this
  · apply f64Round_le _ _ _ _ ha.1 ha.2.1
    set e := min (f64Pow a) (f64Pow b) with he
    have hx := f64Scaled_natAbs a e (by omega)
    have hy := f64Scaled_natAbs b e (by omega)
    have hn : (f64Scaled a e + f64Scaled b e).natAbs ≤ max (f64Scaled a e).natAbs (f64Scaled b e).natAbs := by
      have hpos : ∀ x : F64, 0 ≤ (f64Sig x : Int) * 2 ^ (f64Pow x - e).toNat := fun x => by positivity
      have h1 := hpos a
      have h2 := hpos b
      have ha' : f64Scaled a e = if a.msb then -((f64Sig a : Int) * 2 ^ (f64Pow a - e).toNat) else f64Sig a * 2 ^ (f64Pow a - e).toNat := rfl
      have hb' : f64Scaled b e = if b.msb then -((f64Sig b : Int) * 2 ^ (f64Pow b - e).toNat) else f64Sig b * 2 ^ (f64Pow b - e).toNat := rfl
      rw [ha', hb']
      generalize (f64Sig a : Int) * 2 ^ (f64Pow a - e).toNat = x at h1
      generalize (f64Sig b : Int) * 2 ^ (f64Pow b - e).toNat = y at h2
      cases hma : a.msb <;> cases hmb : b.msb <;> rw [hma, hmb] at hs <;> simp at hs ⊢ <;> omega
    rcases le_max_iff.mp hn with h | h
    · calc ((f64Scaled a e + f64Scaled b e).natAbs : ℚ) * 2 ^ e ≤ (f64Scaled a e).natAbs * 2 ^ e := by gcongr
        _ = f64Abs a := hx
        _ ≤ 2 ^ K := f64Abs_le ha
    · calc ((f64Scaled a e + f64Scaled b e).natAbs : ℚ) * 2 ^ e ≤ (f64Scaled b e).natAbs * 2 ^ e := by gcongr
        _ = f64Abs b := hy
        _ ≤ 2 ^ K := f64Abs_le hb

theorem f64Value_abs (x : F64) : |f64Value x| = f64Abs x := by
  unfold f64Value f64Abs
  have : (0 : ℚ) ≤ (f64Sig x : ℚ) * 2 ^ f64Pow x := by positivity
  split
  · rw [show (-1 : ℚ) * f64Sig x * 2 ^ f64Pow x = -((f64Sig x : ℚ) * 2 ^ f64Pow x) by ring, abs_neg, abs_of_nonneg this]
  · rw [one_mul, abs_of_nonneg this]

/-- The bound on the exact value bounds the bits: the converse of `f64Abs_le`. -/
theorem f64Le_of_value {x : F64} {K : Int} (h0 : -1022 ≤ K) (h1 : K ≤ 1022)
    (h : |f64Value x| ≤ 2 ^ K) : f64Le x K := by
  refine ⟨h0, h1, ?_⟩
  rw [f64Value_abs] at h
  have hm : f64Mag x = f64Exp x * 2 ^ 52 + f64Frac x := by unfold f64Mag f64Exp f64Frac; omega
  by_contra hc
  rw [hm] at hc
  push_cast at hc
  have hfr : f64Frac x < 2 ^ 52 := Nat.mod_lt _ (by norm_num)
  have hfr' : (f64Frac x : Int) < 2 ^ 52 := by exact_mod_cast hfr
  have he : K + 1023 ≤ (f64Exp x : Int) := by
    by_contra hk
    nlinarith
  have hn : f64Exp x ≠ 0 := by omega
  have hs : (2 : ℚ) ^ K * 2 ^ 52 < f64Abs x * 2 ^ 52 := by
    unfold f64Abs f64Sig f64Pow
    rw [if_neg hn, if_neg hn]
    rcases Int.lt_or_eq_of_le he with hlt | heq
    · have hp : (2 : ℚ) ^ (K + 1) * 2 ^ 52 ≤ ((2 ^ 52 + f64Frac x : Nat) : ℚ) * 2 ^ ((f64Exp x : Int) - 1075) * 2 ^ 52 := by
        have h2 : (2 : ℚ) ^ (K + 1) ≤ 2 ^ 52 * 2 ^ ((f64Exp x : Int) - 1075) := by
          rw [← zpow_natCast, ← zpow_add₀ (by norm_num)]
          exact zpow_le_zpow_right₀ (by norm_num) (by push_cast; omega)
        have h3 : (2 : ℚ) ^ 52 ≤ ((2 ^ 52 + f64Frac x : Nat) : ℚ) := by push_cast; linarith [Nat.cast_nonneg (α := ℚ) (f64Frac x)]
        have h4 : (0 : ℚ) < 2 ^ ((f64Exp x : Int) - 1075) := by positivity
        nlinarith [mul_le_mul_of_nonneg_right h3 h4.le]
      have h5 : (0 : ℚ) < 2 ^ K := by positivity
      rw [zpow_add_one₀ (by norm_num)] at hp
      nlinarith
    · have hf0 : 0 < f64Frac x := by
        rw [← heq] at hc
        have : (0 : Int) < f64Frac x := by linarith
        exact_mod_cast this
      have h2 : (2 : ℚ) ^ K = 2 ^ 52 * 2 ^ ((f64Exp x : Int) - 1075) := by
        rw [← zpow_natCast, ← zpow_add₀ (by norm_num)]
        congr 1
        push_cast
        omega
      rw [h2]
      have h4 : (0 : ℚ) < 2 ^ ((f64Exp x : Int) - 1075) := by positivity
      have h5 : (0 : ℚ) < f64Frac x := by exact_mod_cast hf0
      push_cast
      nlinarith [mul_pos h5 h4]
  have : f64Abs x * 2 ^ 52 ≤ 2 ^ K * 2 ^ 52 := by gcongr
  linarith

/-- The fields of a packed number. -/
theorem f64Pack_fields (neg : Bool) (E M : Nat) (hE : E < 2047) (hM : M < 2 ^ 52) :
    f64Exp (f64Pack neg (E * 2 ^ 52 + M)) = E ∧ f64Frac (f64Pack neg (E * 2 ^ 52 + M)) = M ∧
      (f64Pack neg (E * 2 ^ 52 + M)).msb = neg := by
  have hn : (f64Pack neg (E * 2 ^ 52 + M)).toNat = (if neg then 2 ^ 63 else 0) + (E * 2 ^ 52 + M) := by
    unfold f64Pack
    rw [BitVec.toNat_ofNat, Nat.mod_eq_of_lt]
    split <;> omega
  refine ⟨?_, ?_, ?_⟩
  · unfold f64Exp; rw [hn]; split <;> omega
  · unfold f64Frac; rw [hn]; split <;> omega
  · rw [BitVec.msb_eq_decide, hn]
    cases neg <;> simp
    all_goals omega

/-- A number of at most 53 bits whose last bit is not below the subnormals' is rounded to itself (R13, R220). -/
theorem f64Value_round (neg : Bool) (m : Nat) (e : Int) (hm : m < 2 ^ 53) (h0 : -1074 ≤ e) (h1 : e ≤ 971) :
    f64Exp (f64Round neg m e false) < 2047 ∧ f64Value (f64Round neg m e false) = (if neg then -1 else 1) * m * 2 ^ e := by
  by_cases hz : m = 0
  · subst hz
    obtain ⟨a, b, c⟩ := f64Pack_fields neg 0 0 (by norm_num) (by norm_num)
    have hr : f64Round neg 0 e false = f64Pack neg (0 * 2 ^ 52 + 0) := by simp [f64Round, roundBits]
    rw [hr]
    refine ⟨by rw [a]; norm_num, ?_⟩
    unfold f64Value f64Sig
    rw [a, b]
    simp
  have hL : m.log2 ≤ 52 := by
    have := (Nat.log2_lt hz).2 hm
    omega
  have hl : 2 ^ m.log2 ≤ m := Nat.log2_self_le hz
  have hu : m < 2 ^ (m.log2 + 1) := Nat.lt_log2_self
  obtain ⟨p, hp⟩ : ∃ p, roundPow m e = p := ⟨_, rfl⟩
  have hpe : p ≤ e := by unfold roundPow at hp; omega
  have hp0 : -1074 ≤ p := by unfold roundPow at hp; omega
  obtain ⟨k, hk⟩ : ∃ k : Nat, (e - p).toNat = k := ⟨_, rfl⟩
  have hke : e = p + k := by omega
  -- the shifted significand
  have hMu : m * 2 ^ k < 2 ^ 53 := by
    calc m * 2 ^ k < 2 ^ (m.log2 + 1) * 2 ^ k := by gcongr
      _ = 2 ^ (m.log2 + 1 + k) := (pow_add _ _ _).symm
      _ ≤ 2 ^ 53 := Nat.pow_le_pow_right (by norm_num) (by unfold roundPow at hp; omega)
  have hval : ((m * 2 ^ k : Nat) : ℚ) * 2 ^ p = m * 2 ^ e := by
    rw [hke, zpow_add₀ (by norm_num), zpow_natCast]
    push_cast
    ring
  have hbits : roundBits m e false = min f64InfBits ((p + 1074).toNat * 2 ^ 52 + m * 2 ^ k) := by
    unfold roundBits
    rw [if_neg hz, hp, hk, show (p - e).toNat = 0 by omega]
    rfl
  have hinf : f64InfBits = 2047 * 2 ^ 52 := rfl
  by_cases hn : 2 ^ 52 ≤ m * 2 ^ k
  · have hE : (p + 1074).toNat * 2 ^ 52 + m * 2 ^ k = ((p + 1075).toNat) * 2 ^ 52 + (m * 2 ^ k - 2 ^ 52) := by
      rw [show (p + 1075).toNat = (p + 1074).toNat + 1 by omega]; omega
    have hE' : (p + 1075).toNat ≤ 2046 := by unfold roundPow at hp; omega
    obtain ⟨a, b, c⟩ := f64Pack_fields neg (p + 1075).toNat (m * 2 ^ k - 2 ^ 52) (by omega) (by omega)
    have hle : (p + 1075).toNat * 2 ^ 52 + (m * 2 ^ k - 2 ^ 52) ≤ f64InfBits := by rw [hinf]; omega
    rw [f64Round, hbits, hE, Nat.min_eq_right hle]
    refine ⟨by rw [a]; omega, ?_⟩
    unfold f64Value f64Sig f64Pow
    rw [a, b, c, if_neg (show ¬ (p + 1075).toNat = 0 by omega), if_neg (show ¬ (p + 1075).toNat = 0 by omega),
      show 2 ^ 52 + (m * 2 ^ k - 2 ^ 52) = m * 2 ^ k by omega, show ((p + 1075).toNat : Int) - 1075 = p by omega, mul_assoc, hval, mul_assoc]
  · have hpp : p = -1074 := by
      by_contra hc
      have : p = e + m.log2 - 52 := by unfold roundPow at hp; omega
      apply hn
      calc 2 ^ 52 = 2 ^ (m.log2 + k) := by congr 1; omega
        _ = 2 ^ m.log2 * 2 ^ k := pow_add _ _ _
        _ ≤ m * 2 ^ k := by gcongr
    obtain ⟨a, b, c⟩ := f64Pack_fields neg 0 (m * 2 ^ k) (by norm_num) (by omega)
    rw [f64Round, hbits, hpp, show ((-1074 : Int) + 1074).toNat = 0 by norm_num,
      Nat.min_eq_right (by rw [hinf]; omega)]
    refine ⟨by rw [a]; norm_num, ?_⟩
    unfold f64Value f64Sig f64Pow
    rw [a, b, c, if_pos rfl, if_pos rfl, mul_assoc, ← hpp, hval, mul_assoc]

/-- R13: the conversion of an integer of magnitude below `2^53` is exact. -/
theorem f64Value_ofInt {n : Int} (h : n.natAbs < 2 ^ 53) :
    f64Exp (f64OfInt n) < 2047 ∧ f64Value (f64OfInt n) = n := by
  have hr := f64Value_round (decide (n < 0)) n.natAbs 0 h (by norm_num) (by norm_num)
  refine ⟨hr.1, hr.2.trans ?_⟩
  by_cases hn : n < 0
  · have : ((n.natAbs : Int) : ℚ) = -(n : ℚ) := by rw [Int.ofNat_natAbs_of_nonpos hn.le]; push_cast; ring
    simp [hn]; simpa using congrArg Neg.neg this
  · have : ((n.natAbs : Int) : ℚ) = (n : ℚ) := by rw [Int.natAbs_of_nonneg (by omega)]
    simp [hn]; simpa using this

end Sys2Proof.Machine
end

