-- ==== Sys2Proof/Laws/Checkpoints.lean ====
section
/-!
SUPPORT. What an overflow checkpoint answers (R192), and that WRAP mode's value is the reading of a machine word (R11, R195).
-/

namespace Sys2Proof.Machine

theorem inS32_iff {v : Int} : inS32 v = true ↔ -2147483648 ≤ v ∧ v < 2147483648 := by simp [inS32]

theorem inS64_iff {v : Int} : inS64 v = true ↔ -9223372036854775808 ≤ v ∧ v < 9223372036854775808 := by simp [inS64]

/-- A value in range is its own reading. -/
theorem modS32_of_inS32 {v : Int} (h : inS32 v = true) : modS32 v = v := by
  have := inS32_iff.mp h
  unfold modS32
  rw [Int.bmod_eq_of_le] <;> omega

theorem modS64_of_inS64 {v : Int} (h : inS64 v = true) : modS64 v = v := by
  have := inS64_iff.mp h
  unfold modS64
  rw [Int.bmod_eq_of_le] <;> omega

/-- The wrapped value is the two's-complement reading of the word. -/
theorem modS32_eq (v : Int) : modS32 v = (BitVec.ofInt 32 v).toInt := (BitVec.toInt_ofInt ..).symm

theorem modS64_eq (v : Int) : modS64 v = (BitVec.ofInt 64 v).toInt := (BitVec.toInt_ofInt ..).symm

/-- In range, both modes answer the value. -/
theorem ckS32_inRange {mode : OverflowMode} {v : Int} (h : inS32 v = true) : ckS32 mode v = .ok v := by
  cases mode <;> simp [ckS32, checkpoint, h]

theorem ckS64_inRange {mode : OverflowMode} {v : Int} (h : inS64 v = true) : ckS64 mode v = .ok v := by
  cases mode <;> simp [ckS64, checkpoint, h]

/-- WRAP always answers, with the wrapped value. -/
theorem ckS32_wrap (v : Int) : ckS32 .wrap v = .ok (modS32 v) := by
  unfold ckS32 checkpoint
  by_cases h : inS32 v = true
  · simp [h, modS32_of_inS32 h]
  · simp [h]

theorem ckS64_wrap (v : Int) : ckS64 .wrap v = .ok (modS64 v) := by
  unfold ckS64 checkpoint
  by_cases h : inS64 v = true
  · simp [h, modS64_of_inS64 h]
  · simp [h]

/-- FAULT answers the value, or raises ARITH_OVERFLOW. -/
theorem ckS32_fault (v : Int) : ckS32 .fault v = if inS32 v then .ok v else .error .arithOverflow := rfl

theorem ckS64_fault (v : Int) : ckS64 .fault v = if inS64 v then .ok v else .error .arithOverflow := rfl

/-- Everything a checkpoint can do: with WRAP the wrapped value; with FAULT that same value, in range, or the fault. -/
theorem ckS32_cases (mode : OverflowMode) (v : Int) :
    ckS32 mode v = .ok (modS32 v) ∨ (mode = .fault ∧ ckS32 mode v = .error .arithOverflow) := by
  by_cases h : inS32 v = true
  · exact .inl (by rw [ckS32_inRange h, modS32_of_inS32 h])
  · cases mode with
    | fault => exact .inr ⟨rfl, by simp [ckS32_fault, h]⟩
    | wrap => exact .inl (ckS32_wrap v)

theorem ckS64_cases (mode : OverflowMode) (v : Int) :
    ckS64 mode v = .ok (modS64 v) ∨ (mode = .fault ∧ ckS64 mode v = .error .arithOverflow) := by
  by_cases h : inS64 v = true
  · exact .inl (by rw [ckS64_inRange h, modS64_of_inS64 h])
  · cases mode with
    | fault => exact .inr ⟨rfl, by simp [ckS64_fault, h]⟩
    | wrap => exact .inl (ckS64_wrap v)

/-! ## A checked line and what follows it -/

/-- In range, in both modes, what follows takes the value. -/
theorem ckS32_bind_inRange {α : Type} {mode : OverflowMode} {v : Int} (h : inS32 v = true) (f : Int → Except FaultBit α) :
    (ckS32 mode v >>= f) = f v := by
  rw [ckS32_inRange h]; rfl

theorem ckS64_bind_inRange {α : Type} {mode : OverflowMode} {v : Int} (h : inS64 v = true) (f : Int → Except FaultBit α) :
    (ckS64 mode v >>= f) = f v := by
  rw [ckS64_inRange h]; rfl

/-- In FAULT mode what follows is reached only with the value, in range. -/
theorem ckS32_bind_fault {α : Type} (v : Int) (f : Int → Except FaultBit α) :
    (ckS32 .fault v >>= f) = if inS32 v then f v else .error .arithOverflow := by
  rw [ckS32_fault]; split <;> rfl

theorem ckS64_bind_fault {α : Type} (v : Int) (f : Int → Except FaultBit α) :
    (ckS64 .fault v >>= f) = if inS64 v then f v else .error .arithOverflow := by
  rw [ckS64_fault]; split <;> rfl

/-- In WRAP mode what follows takes the wrapped value. -/
theorem ckS32_bind_wrap {α : Type} (v : Int) (f : Int → Except FaultBit α) : (ckS32 .wrap v >>= f) = f (modS32 v) := by
  rw [ckS32_wrap]; rfl

theorem ckS64_bind_wrap {α : Type} (v : Int) (f : Int → Except FaultBit α) : (ckS64 .wrap v >>= f) = f (modS64 v) := by
  rw [ckS64_wrap]; rfl

end Sys2Proof.Machine
end

