-- ==== Sys2Proof/Laws/State.lean ====
section
/-!
SUPPORT. What each named update leaves in each field of State: one equation per field per update, true by rfl and in the
simp set, so that no proof unfolds a record update.
-/

namespace Sys2Proof.Machine

variable (s : State)

/-! ### raise -/

@[simp] theorem raise_cfg (f : FaultBit) : (s.raise f).cfg = s.cfg := rfl
@[simp] theorem raise_state (f : FaultBit) : (s.raise f).state = s.state := rfl
@[simp] theorem raise_kind (f : FaultBit) : (s.raise f).kind = s.kind := rfl
@[simp] theorem raise_busy (f : FaultBit) : (s.raise f).busy = s.busy := rfl
@[simp] theorem raise_cal (f : FaultBit) : (s.raise f).cal = s.cal := rfl
@[simp] theorem raise_raw (f : FaultBit) : (s.raise f).raw = s.raw := rfl
@[simp] theorem raise_tfineI (f : FaultBit) : (s.raise f).tfineI = s.tfineI := rfl
@[simp] theorem raise_tfineF (f : FaultBit) : (s.raise f).tfineF = s.tfineF := rfl
@[simp] theorem raise_resTInt (f : FaultBit) : (s.raise f).resTInt = s.resTInt := rfl
@[simp] theorem raise_resPInt (f : FaultBit) : (s.raise f).resPInt = s.resPInt := rfl
@[simp] theorem raise_resTFlt (f : FaultBit) : (s.raise f).resTFlt = s.resTFlt := rfl
@[simp] theorem raise_resPFlt (f : FaultBit) : (s.raise f).resPFlt = s.resPFlt := rfl
@[simp] theorem raise_pairedI (f : FaultBit) : (s.raise f).pairedI = s.pairedI := rfl
@[simp] theorem raise_pairedF (f : FaultBit) : (s.raise f).pairedF = s.pairedF := rfl
@[simp] theorem raise_xbuf (f : FaultBit) : (s.raise f).xbuf = s.xbuf := rfl
@[simp] theorem raise_cs (f : FaultBit) : (s.raise f).cs = s.cs := rfl
@[simp] theorem raise_hist (f : FaultBit) : (s.raise f).hist = s.hist := rfl
@[simp] theorem raise_phase (f : FaultBit) : (s.raise f).phase = s.phase := rfl
@[simp] theorem raise_cmd (f : FaultBit) : (s.raise f).cmd = s.cmd := rfl
@[simp] theorem raise_settleTarget (f : FaultBit) : (s.raise f).settleTarget = s.settleTarget := rfl
@[simp] theorem raise_faults (f : FaultBit) : (s.raise f).faults = (s.faults ||| faultMask f) := rfl
@[simp] theorem raise_bus (f : FaultBit) : (s.raise f).bus = s.bus := rfl
@[simp] theorem raise_ticks (f : FaultBit) : (s.raise f).ticks = s.ticks := rfl
@[simp] theorem raise_busReady (f : FaultBit) : (s.raise f).busReady = s.busReady := rfl
@[simp] theorem raise_sensor (f : FaultBit) : (s.raise f).sensor = s.sensor := rfl
@[simp] theorem raise_results (f : FaultBit) : (s.raise f).results = s.results := rfl
@[simp] theorem raise_agenda (f : FaultBit) : (s.raise f).agenda = s.agenda := rfl
@[simp] theorem raise_quantum (f : FaultBit) : (s.raise f).quantum = s.quantum := rfl
@[simp] theorem raise_turns (f : FaultBit) : (s.raise f).turns = s.turns := rfl
@[simp] theorem raise_draws (f : FaultBit) : (s.raise f).draws = s.draws := rfl
@[simp] theorem raise_opResult (f : FaultBit) : (s.raise f).opResult = s.opResult := rfl

/-! ### tick -/

@[simp] theorem tick_cfg : (s.tick).cfg = s.cfg := rfl
@[simp] theorem tick_state : (s.tick).state = s.state := rfl
@[simp] theorem tick_kind : (s.tick).kind = s.kind := rfl
@[simp] theorem tick_busy : (s.tick).busy = s.busy := rfl
@[simp] theorem tick_cal : (s.tick).cal = s.cal := rfl
@[simp] theorem tick_raw : (s.tick).raw = s.raw := rfl
@[simp] theorem tick_tfineI : (s.tick).tfineI = s.tfineI := rfl
@[simp] theorem tick_tfineF : (s.tick).tfineF = s.tfineF := rfl
@[simp] theorem tick_resTInt : (s.tick).resTInt = s.resTInt := rfl
@[simp] theorem tick_resPInt : (s.tick).resPInt = s.resPInt := rfl
@[simp] theorem tick_resTFlt : (s.tick).resTFlt = s.resTFlt := rfl
@[simp] theorem tick_resPFlt : (s.tick).resPFlt = s.resPFlt := rfl
@[simp] theorem tick_pairedI : (s.tick).pairedI = s.pairedI := rfl
@[simp] theorem tick_pairedF : (s.tick).pairedF = s.pairedF := rfl
@[simp] theorem tick_xbuf : (s.tick).xbuf = s.xbuf := rfl
@[simp] theorem tick_cs : (s.tick).cs = s.cs := rfl
@[simp] theorem tick_hist : (s.tick).hist = s.hist := rfl
@[simp] theorem tick_phase : (s.tick).phase = s.phase := rfl
@[simp] theorem tick_cmd : (s.tick).cmd = s.cmd := rfl
@[simp] theorem tick_settleTarget : (s.tick).settleTarget = s.settleTarget := rfl
@[simp] theorem tick_faults : (s.tick).faults = s.faults := rfl
@[simp] theorem tick_bus : (s.tick).bus = s.bus := rfl
@[simp] theorem tick_ticks : (s.tick).ticks = (s.ticks + 1) := rfl
@[simp] theorem tick_busReady : (s.tick).busReady = s.busReady := rfl
@[simp] theorem tick_sensor : (s.tick).sensor = s.sensor := rfl
@[simp] theorem tick_results : (s.tick).results = s.results := rfl
@[simp] theorem tick_agenda : (s.tick).agenda = s.agenda := rfl
@[simp] theorem tick_quantum : (s.tick).quantum = s.quantum := rfl
@[simp] theorem tick_turns : (s.tick).turns = s.turns := rfl
@[simp] theorem tick_draws : (s.tick).draws = s.draws := rfl
@[simp] theorem tick_opResult : (s.tick).opResult = s.opResult := rfl

/-! ### handOver -/

@[simp] theorem handOver_cfg (r : CmdResult) : (s.handOver r).cfg = s.cfg := rfl
@[simp] theorem handOver_state (r : CmdResult) : (s.handOver r).state = s.state := rfl
@[simp] theorem handOver_kind (r : CmdResult) : (s.handOver r).kind = s.kind := rfl
@[simp] theorem handOver_busy (r : CmdResult) : (s.handOver r).busy = s.busy := rfl
@[simp] theorem handOver_cal (r : CmdResult) : (s.handOver r).cal = s.cal := rfl
@[simp] theorem handOver_raw (r : CmdResult) : (s.handOver r).raw = s.raw := rfl
@[simp] theorem handOver_tfineI (r : CmdResult) : (s.handOver r).tfineI = s.tfineI := rfl
@[simp] theorem handOver_tfineF (r : CmdResult) : (s.handOver r).tfineF = s.tfineF := rfl
@[simp] theorem handOver_resTInt (r : CmdResult) : (s.handOver r).resTInt = s.resTInt := rfl
@[simp] theorem handOver_resPInt (r : CmdResult) : (s.handOver r).resPInt = s.resPInt := rfl
@[simp] theorem handOver_resTFlt (r : CmdResult) : (s.handOver r).resTFlt = s.resTFlt := rfl
@[simp] theorem handOver_resPFlt (r : CmdResult) : (s.handOver r).resPFlt = s.resPFlt := rfl
@[simp] theorem handOver_pairedI (r : CmdResult) : (s.handOver r).pairedI = s.pairedI := rfl
@[simp] theorem handOver_pairedF (r : CmdResult) : (s.handOver r).pairedF = s.pairedF := rfl
@[simp] theorem handOver_xbuf (r : CmdResult) : (s.handOver r).xbuf = s.xbuf := rfl
@[simp] theorem handOver_cs (r : CmdResult) : (s.handOver r).cs = s.cs := rfl
@[simp] theorem handOver_hist (r : CmdResult) : (s.handOver r).hist = s.hist := rfl
@[simp] theorem handOver_phase (r : CmdResult) : (s.handOver r).phase = s.phase := rfl
@[simp] theorem handOver_cmd (r : CmdResult) : (s.handOver r).cmd = s.cmd := rfl
@[simp] theorem handOver_settleTarget (r : CmdResult) : (s.handOver r).settleTarget = s.settleTarget := rfl
@[simp] theorem handOver_faults (r : CmdResult) : (s.handOver r).faults = s.faults := rfl
@[simp] theorem handOver_bus (r : CmdResult) : (s.handOver r).bus = s.bus := rfl
@[simp] theorem handOver_ticks (r : CmdResult) : (s.handOver r).ticks = s.ticks := rfl
@[simp] theorem handOver_busReady (r : CmdResult) : (s.handOver r).busReady = s.busReady := rfl
@[simp] theorem handOver_sensor (r : CmdResult) : (s.handOver r).sensor = s.sensor := rfl
@[simp] theorem handOver_results (r : CmdResult) : (s.handOver r).results = (s.results ++ [r]) := rfl
@[simp] theorem handOver_agenda (r : CmdResult) : (s.handOver r).agenda = s.agenda := rfl
@[simp] theorem handOver_quantum (r : CmdResult) : (s.handOver r).quantum = s.quantum := rfl
@[simp] theorem handOver_turns (r : CmdResult) : (s.handOver r).turns = s.turns := rfl
@[simp] theorem handOver_draws (r : CmdResult) : (s.handOver r).draws = s.draws := rfl
@[simp] theorem handOver_opResult (r : CmdResult) : (s.handOver r).opResult = s.opResult := rfl

/-! ### pairInt -/

@[simp] theorem pairInt_cfg : (s.pairInt).cfg = s.cfg := rfl
@[simp] theorem pairInt_state : (s.pairInt).state = s.state := rfl
@[simp] theorem pairInt_kind : (s.pairInt).kind = s.kind := rfl
@[simp] theorem pairInt_busy : (s.pairInt).busy = s.busy := rfl
@[simp] theorem pairInt_cal : (s.pairInt).cal = s.cal := rfl
@[simp] theorem pairInt_raw : (s.pairInt).raw = s.raw := rfl
@[simp] theorem pairInt_tfineI : (s.pairInt).tfineI = s.tfineI := rfl
@[simp] theorem pairInt_tfineF : (s.pairInt).tfineF = s.tfineF := rfl
@[simp] theorem pairInt_resTInt : (s.pairInt).resTInt = s.resTInt := rfl
@[simp] theorem pairInt_resPInt : (s.pairInt).resPInt = s.resPInt := rfl
@[simp] theorem pairInt_resTFlt : (s.pairInt).resTFlt = s.resTFlt := rfl
@[simp] theorem pairInt_resPFlt : (s.pairInt).resPFlt = s.resPFlt := rfl
@[simp] theorem pairInt_pairedI : (s.pairInt).pairedI = true := rfl
@[simp] theorem pairInt_pairedF : (s.pairInt).pairedF = false := rfl
@[simp] theorem pairInt_xbuf : (s.pairInt).xbuf = s.xbuf := rfl
@[simp] theorem pairInt_cs : (s.pairInt).cs = s.cs := rfl
@[simp] theorem pairInt_hist : (s.pairInt).hist = s.hist := rfl
@[simp] theorem pairInt_phase : (s.pairInt).phase = s.phase := rfl
@[simp] theorem pairInt_cmd : (s.pairInt).cmd = s.cmd := rfl
@[simp] theorem pairInt_settleTarget : (s.pairInt).settleTarget = s.settleTarget := rfl
@[simp] theorem pairInt_faults : (s.pairInt).faults = s.faults := rfl
@[simp] theorem pairInt_bus : (s.pairInt).bus = s.bus := rfl
@[simp] theorem pairInt_ticks : (s.pairInt).ticks = s.ticks := rfl
@[simp] theorem pairInt_busReady : (s.pairInt).busReady = s.busReady := rfl
@[simp] theorem pairInt_sensor : (s.pairInt).sensor = s.sensor := rfl
@[simp] theorem pairInt_results : (s.pairInt).results = s.results := rfl
@[simp] theorem pairInt_agenda : (s.pairInt).agenda = s.agenda := rfl
@[simp] theorem pairInt_quantum : (s.pairInt).quantum = s.quantum := rfl
@[simp] theorem pairInt_turns : (s.pairInt).turns = s.turns := rfl
@[simp] theorem pairInt_draws : (s.pairInt).draws = s.draws := rfl
@[simp] theorem pairInt_opResult : (s.pairInt).opResult = s.opResult := rfl

/-! ### pairFlt -/

@[simp] theorem pairFlt_cfg : (s.pairFlt).cfg = s.cfg := rfl
@[simp] theorem pairFlt_state : (s.pairFlt).state = s.state := rfl
@[simp] theorem pairFlt_kind : (s.pairFlt).kind = s.kind := rfl
@[simp] theorem pairFlt_busy : (s.pairFlt).busy = s.busy := rfl
@[simp] theorem pairFlt_cal : (s.pairFlt).cal = s.cal := rfl
@[simp] theorem pairFlt_raw : (s.pairFlt).raw = s.raw := rfl
@[simp] theorem pairFlt_tfineI : (s.pairFlt).tfineI = s.tfineI := rfl
@[simp] theorem pairFlt_tfineF : (s.pairFlt).tfineF = s.tfineF := rfl
@[simp] theorem pairFlt_resTInt : (s.pairFlt).resTInt = s.resTInt := rfl
@[simp] theorem pairFlt_resPInt : (s.pairFlt).resPInt = s.resPInt := rfl
@[simp] theorem pairFlt_resTFlt : (s.pairFlt).resTFlt = s.resTFlt := rfl
@[simp] theorem pairFlt_resPFlt : (s.pairFlt).resPFlt = s.resPFlt := rfl
@[simp] theorem pairFlt_pairedI : (s.pairFlt).pairedI = false := rfl
@[simp] theorem pairFlt_pairedF : (s.pairFlt).pairedF = true := rfl
@[simp] theorem pairFlt_xbuf : (s.pairFlt).xbuf = s.xbuf := rfl
@[simp] theorem pairFlt_cs : (s.pairFlt).cs = s.cs := rfl
@[simp] theorem pairFlt_hist : (s.pairFlt).hist = s.hist := rfl
@[simp] theorem pairFlt_phase : (s.pairFlt).phase = s.phase := rfl
@[simp] theorem pairFlt_cmd : (s.pairFlt).cmd = s.cmd := rfl
@[simp] theorem pairFlt_settleTarget : (s.pairFlt).settleTarget = s.settleTarget := rfl
@[simp] theorem pairFlt_faults : (s.pairFlt).faults = s.faults := rfl
@[simp] theorem pairFlt_bus : (s.pairFlt).bus = s.bus := rfl
@[simp] theorem pairFlt_ticks : (s.pairFlt).ticks = s.ticks := rfl
@[simp] theorem pairFlt_busReady : (s.pairFlt).busReady = s.busReady := rfl
@[simp] theorem pairFlt_sensor : (s.pairFlt).sensor = s.sensor := rfl
@[simp] theorem pairFlt_results : (s.pairFlt).results = s.results := rfl
@[simp] theorem pairFlt_agenda : (s.pairFlt).agenda = s.agenda := rfl
@[simp] theorem pairFlt_quantum : (s.pairFlt).quantum = s.quantum := rfl
@[simp] theorem pairFlt_turns : (s.pairFlt).turns = s.turns := rfl
@[simp] theorem pairFlt_draws : (s.pairFlt).draws = s.draws := rfl
@[simp] theorem pairFlt_opResult : (s.pairFlt).opResult = s.opResult := rfl

/-! ### admitted -/

@[simp] theorem admitted_cfg (c : Byte) : (s.admitted c).cfg = s.cfg := rfl
@[simp] theorem admitted_state (c : Byte) : (s.admitted c).state = s.state := rfl
@[simp] theorem admitted_kind (c : Byte) : (s.admitted c).kind = s.kind := rfl
@[simp] theorem admitted_busy (c : Byte) : (s.admitted c).busy = true := rfl
@[simp] theorem admitted_cal (c : Byte) : (s.admitted c).cal = s.cal := rfl
@[simp] theorem admitted_raw (c : Byte) : (s.admitted c).raw = s.raw := rfl
@[simp] theorem admitted_tfineI (c : Byte) : (s.admitted c).tfineI = s.tfineI := rfl
@[simp] theorem admitted_tfineF (c : Byte) : (s.admitted c).tfineF = s.tfineF := rfl
@[simp] theorem admitted_resTInt (c : Byte) : (s.admitted c).resTInt = s.resTInt := rfl
@[simp] theorem admitted_resPInt (c : Byte) : (s.admitted c).resPInt = s.resPInt := rfl
@[simp] theorem admitted_resTFlt (c : Byte) : (s.admitted c).resTFlt = s.resTFlt := rfl
@[simp] theorem admitted_resPFlt (c : Byte) : (s.admitted c).resPFlt = s.resPFlt := rfl
@[simp] theorem admitted_pairedI (c : Byte) : (s.admitted c).pairedI = s.pairedI := rfl
@[simp] theorem admitted_pairedF (c : Byte) : (s.admitted c).pairedF = s.pairedF := rfl
@[simp] theorem admitted_xbuf (c : Byte) : (s.admitted c).xbuf = s.xbuf := rfl
@[simp] theorem admitted_cs (c : Byte) : (s.admitted c).cs = s.cs := rfl
@[simp] theorem admitted_hist (c : Byte) : (s.admitted c).hist = s.hist := rfl
@[simp] theorem admitted_phase (c : Byte) : (s.admitted c).phase = s.phase := rfl
@[simp] theorem admitted_cmd (c : Byte) : (s.admitted c).cmd = c := rfl
@[simp] theorem admitted_settleTarget (c : Byte) : (s.admitted c).settleTarget = s.settleTarget := rfl
@[simp] theorem admitted_faults (c : Byte) : (s.admitted c).faults = s.faults := rfl
@[simp] theorem admitted_bus (c : Byte) : (s.admitted c).bus = .idle := rfl
@[simp] theorem admitted_ticks (c : Byte) : (s.admitted c).ticks = s.ticks := rfl
@[simp] theorem admitted_busReady (c : Byte) : (s.admitted c).busReady = s.busReady := rfl
@[simp] theorem admitted_sensor (c : Byte) : (s.admitted c).sensor = s.sensor := rfl
@[simp] theorem admitted_results (c : Byte) : (s.admitted c).results = s.results := rfl
@[simp] theorem admitted_agenda (c : Byte) : (s.admitted c).agenda = s.agenda := rfl
@[simp] theorem admitted_quantum (c : Byte) : (s.admitted c).quantum = s.quantum := rfl
@[simp] theorem admitted_turns (c : Byte) : (s.admitted c).turns = s.turns := rfl
@[simp] theorem admitted_draws (c : Byte) : (s.admitted c).draws = s.draws := rfl
@[simp] theorem admitted_opResult (c : Byte) : (s.admitted c).opResult = s.opResult := rfl

/-! ### atPhase -/

@[simp] theorem atPhase_cfg (p : Phase) : (s.atPhase p).cfg = s.cfg := rfl
@[simp] theorem atPhase_state (p : Phase) : (s.atPhase p).state = s.state := rfl
@[simp] theorem atPhase_kind (p : Phase) : (s.atPhase p).kind = s.kind := rfl
@[simp] theorem atPhase_busy (p : Phase) : (s.atPhase p).busy = s.busy := rfl
@[simp] theorem atPhase_cal (p : Phase) : (s.atPhase p).cal = s.cal := rfl
@[simp] theorem atPhase_raw (p : Phase) : (s.atPhase p).raw = s.raw := rfl
@[simp] theorem atPhase_tfineI (p : Phase) : (s.atPhase p).tfineI = s.tfineI := rfl
@[simp] theorem atPhase_tfineF (p : Phase) : (s.atPhase p).tfineF = s.tfineF := rfl
@[simp] theorem atPhase_resTInt (p : Phase) : (s.atPhase p).resTInt = s.resTInt := rfl
@[simp] theorem atPhase_resPInt (p : Phase) : (s.atPhase p).resPInt = s.resPInt := rfl
@[simp] theorem atPhase_resTFlt (p : Phase) : (s.atPhase p).resTFlt = s.resTFlt := rfl
@[simp] theorem atPhase_resPFlt (p : Phase) : (s.atPhase p).resPFlt = s.resPFlt := rfl
@[simp] theorem atPhase_pairedI (p : Phase) : (s.atPhase p).pairedI = s.pairedI := rfl
@[simp] theorem atPhase_pairedF (p : Phase) : (s.atPhase p).pairedF = s.pairedF := rfl
@[simp] theorem atPhase_xbuf (p : Phase) : (s.atPhase p).xbuf = s.xbuf := rfl
@[simp] theorem atPhase_cs (p : Phase) : (s.atPhase p).cs = s.cs := rfl
@[simp] theorem atPhase_hist (p : Phase) : (s.atPhase p).hist = s.hist := rfl
@[simp] theorem atPhase_phase (p : Phase) : (s.atPhase p).phase = p := rfl
@[simp] theorem atPhase_cmd (p : Phase) : (s.atPhase p).cmd = s.cmd := rfl
@[simp] theorem atPhase_settleTarget (p : Phase) : (s.atPhase p).settleTarget = s.settleTarget := rfl
@[simp] theorem atPhase_faults (p : Phase) : (s.atPhase p).faults = s.faults := rfl
@[simp] theorem atPhase_bus (p : Phase) : (s.atPhase p).bus = s.bus := rfl
@[simp] theorem atPhase_ticks (p : Phase) : (s.atPhase p).ticks = s.ticks := rfl
@[simp] theorem atPhase_busReady (p : Phase) : (s.atPhase p).busReady = s.busReady := rfl
@[simp] theorem atPhase_sensor (p : Phase) : (s.atPhase p).sensor = s.sensor := rfl
@[simp] theorem atPhase_results (p : Phase) : (s.atPhase p).results = s.results := rfl
@[simp] theorem atPhase_agenda (p : Phase) : (s.atPhase p).agenda = s.agenda := rfl
@[simp] theorem atPhase_quantum (p : Phase) : (s.atPhase p).quantum = s.quantum := rfl
@[simp] theorem atPhase_turns (p : Phase) : (s.atPhase p).turns = s.turns := rfl
@[simp] theorem atPhase_draws (p : Phase) : (s.atPhase p).draws = s.draws := rfl
@[simp] theorem atPhase_opResult (p : Phase) : (s.atPhase p).opResult = s.opResult := rfl

/-! ### goTo -/

@[simp] theorem goTo_cfg (p : Phase) : (s.goTo p).cfg = s.cfg := rfl
@[simp] theorem goTo_state (p : Phase) : (s.goTo p).state = s.state := rfl
@[simp] theorem goTo_kind (p : Phase) : (s.goTo p).kind = s.kind := rfl
@[simp] theorem goTo_busy (p : Phase) : (s.goTo p).busy = s.busy := rfl
@[simp] theorem goTo_cal (p : Phase) : (s.goTo p).cal = s.cal := rfl
@[simp] theorem goTo_raw (p : Phase) : (s.goTo p).raw = s.raw := rfl
@[simp] theorem goTo_tfineI (p : Phase) : (s.goTo p).tfineI = s.tfineI := rfl
@[simp] theorem goTo_tfineF (p : Phase) : (s.goTo p).tfineF = s.tfineF := rfl
@[simp] theorem goTo_resTInt (p : Phase) : (s.goTo p).resTInt = s.resTInt := rfl
@[simp] theorem goTo_resPInt (p : Phase) : (s.goTo p).resPInt = s.resPInt := rfl
@[simp] theorem goTo_resTFlt (p : Phase) : (s.goTo p).resTFlt = s.resTFlt := rfl
@[simp] theorem goTo_resPFlt (p : Phase) : (s.goTo p).resPFlt = s.resPFlt := rfl
@[simp] theorem goTo_pairedI (p : Phase) : (s.goTo p).pairedI = s.pairedI := rfl
@[simp] theorem goTo_pairedF (p : Phase) : (s.goTo p).pairedF = s.pairedF := rfl
@[simp] theorem goTo_xbuf (p : Phase) : (s.goTo p).xbuf = s.xbuf := rfl
@[simp] theorem goTo_cs (p : Phase) : (s.goTo p).cs = s.cs := rfl
@[simp] theorem goTo_hist (p : Phase) : (s.goTo p).hist = s.hist := rfl
@[simp] theorem goTo_phase (p : Phase) : (s.goTo p).phase = p := rfl
@[simp] theorem goTo_cmd (p : Phase) : (s.goTo p).cmd = s.cmd := rfl
@[simp] theorem goTo_settleTarget (p : Phase) : (s.goTo p).settleTarget = s.settleTarget := rfl
@[simp] theorem goTo_faults (p : Phase) : (s.goTo p).faults = s.faults := rfl
@[simp] theorem goTo_bus (p : Phase) : (s.goTo p).bus = .idle := rfl
@[simp] theorem goTo_ticks (p : Phase) : (s.goTo p).ticks = s.ticks := rfl
@[simp] theorem goTo_busReady (p : Phase) : (s.goTo p).busReady = s.busReady := rfl
@[simp] theorem goTo_sensor (p : Phase) : (s.goTo p).sensor = s.sensor := rfl
@[simp] theorem goTo_results (p : Phase) : (s.goTo p).results = s.results := rfl
@[simp] theorem goTo_agenda (p : Phase) : (s.goTo p).agenda = s.agenda := rfl
@[simp] theorem goTo_quantum (p : Phase) : (s.goTo p).quantum = s.quantum := rfl
@[simp] theorem goTo_turns (p : Phase) : (s.goTo p).turns = s.turns := rfl
@[simp] theorem goTo_draws (p : Phase) : (s.goTo p).draws = s.draws := rfl
@[simp] theorem goTo_opResult (p : Phase) : (s.goTo p).opResult = s.opResult := rfl

/-! ### startSample -/

@[simp] theorem startSample_cfg : (s.startSample).cfg = s.cfg := rfl
@[simp] theorem startSample_state : (s.startSample).state = .measuring := rfl
@[simp] theorem startSample_kind : (s.startSample).kind = s.kind := rfl
@[simp] theorem startSample_busy : (s.startSample).busy = s.busy := rfl
@[simp] theorem startSample_cal : (s.startSample).cal = s.cal := rfl
@[simp] theorem startSample_raw : (s.startSample).raw = s.raw := rfl
@[simp] theorem startSample_tfineI : (s.startSample).tfineI = s.tfineI := rfl
@[simp] theorem startSample_tfineF : (s.startSample).tfineF = s.tfineF := rfl
@[simp] theorem startSample_resTInt : (s.startSample).resTInt = s.resTInt := rfl
@[simp] theorem startSample_resPInt : (s.startSample).resPInt = s.resPInt := rfl
@[simp] theorem startSample_resTFlt : (s.startSample).resTFlt = s.resTFlt := rfl
@[simp] theorem startSample_resPFlt : (s.startSample).resPFlt = s.resPFlt := rfl
@[simp] theorem startSample_pairedI : (s.startSample).pairedI = s.pairedI := rfl
@[simp] theorem startSample_pairedF : (s.startSample).pairedF = s.pairedF := rfl
@[simp] theorem startSample_xbuf : (s.startSample).xbuf = s.xbuf := rfl
@[simp] theorem startSample_cs : (s.startSample).cs = s.cs := rfl
@[simp] theorem startSample_hist : (s.startSample).hist = s.hist := rfl
@[simp] theorem startSample_phase : (s.startSample).phase = .trigger := rfl
@[simp] theorem startSample_cmd : (s.startSample).cmd = s.cmd := rfl
@[simp] theorem startSample_settleTarget : (s.startSample).settleTarget = s.settleTarget := rfl
@[simp] theorem startSample_faults : (s.startSample).faults = s.faults := rfl
@[simp] theorem startSample_bus : (s.startSample).bus = .idle := rfl
@[simp] theorem startSample_ticks : (s.startSample).ticks = s.ticks := rfl
@[simp] theorem startSample_busReady : (s.startSample).busReady = s.busReady := rfl
@[simp] theorem startSample_sensor : (s.startSample).sensor = s.sensor := rfl
@[simp] theorem startSample_results : (s.startSample).results = s.results := rfl
@[simp] theorem startSample_agenda : (s.startSample).agenda = s.agenda := rfl
@[simp] theorem startSample_quantum : (s.startSample).quantum = s.quantum := rfl
@[simp] theorem startSample_turns : (s.startSample).turns = s.turns := rfl
@[simp] theorem startSample_draws : (s.startSample).draws = s.draws := rfl
@[simp] theorem startSample_opResult : (s.startSample).opResult = s.opResult := rfl

/-! ### beginFrame -/

@[simp] theorem beginFrame_cfg (k : FrameKind) (m : List Byte) : (s.beginFrame k m).cfg = s.cfg := rfl
@[simp] theorem beginFrame_state (k : FrameKind) (m : List Byte) : (s.beginFrame k m).state = s.state := rfl
@[simp] theorem beginFrame_kind (k : FrameKind) (m : List Byte) : (s.beginFrame k m).kind = s.kind := rfl
@[simp] theorem beginFrame_busy (k : FrameKind) (m : List Byte) : (s.beginFrame k m).busy = s.busy := rfl
@[simp] theorem beginFrame_cal (k : FrameKind) (m : List Byte) : (s.beginFrame k m).cal = s.cal := rfl
@[simp] theorem beginFrame_raw (k : FrameKind) (m : List Byte) : (s.beginFrame k m).raw = s.raw := rfl
@[simp] theorem beginFrame_tfineI (k : FrameKind) (m : List Byte) : (s.beginFrame k m).tfineI = s.tfineI := rfl
@[simp] theorem beginFrame_tfineF (k : FrameKind) (m : List Byte) : (s.beginFrame k m).tfineF = s.tfineF := rfl
@[simp] theorem beginFrame_resTInt (k : FrameKind) (m : List Byte) : (s.beginFrame k m).resTInt = s.resTInt := rfl
@[simp] theorem beginFrame_resPInt (k : FrameKind) (m : List Byte) : (s.beginFrame k m).resPInt = s.resPInt := rfl
@[simp] theorem beginFrame_resTFlt (k : FrameKind) (m : List Byte) : (s.beginFrame k m).resTFlt = s.resTFlt := rfl
@[simp] theorem beginFrame_resPFlt (k : FrameKind) (m : List Byte) : (s.beginFrame k m).resPFlt = s.resPFlt := rfl
@[simp] theorem beginFrame_pairedI (k : FrameKind) (m : List Byte) : (s.beginFrame k m).pairedI = s.pairedI := rfl
@[simp] theorem beginFrame_pairedF (k : FrameKind) (m : List Byte) : (s.beginFrame k m).pairedF = s.pairedF := rfl
@[simp] theorem beginFrame_xbuf (k : FrameKind) (m : List Byte) : (s.beginFrame k m).xbuf = s.xbuf := rfl
@[simp] theorem beginFrame_cs (k : FrameKind) (m : List Byte) : (s.beginFrame k m).cs = .asserted := rfl
@[simp] theorem beginFrame_hist (k : FrameKind) (m : List Byte) : (s.beginFrame k m).hist = s.hist := rfl
@[simp] theorem beginFrame_phase (k : FrameKind) (m : List Byte) : (s.beginFrame k m).phase = s.phase := rfl
@[simp] theorem beginFrame_cmd (k : FrameKind) (m : List Byte) : (s.beginFrame k m).cmd = s.cmd := rfl
@[simp] theorem beginFrame_settleTarget (k : FrameKind) (m : List Byte) : (s.beginFrame k m).settleTarget = s.settleTarget := rfl
@[simp] theorem beginFrame_faults (k : FrameKind) (m : List Byte) : (s.beginFrame k m).faults = s.faults := rfl
@[simp] theorem beginFrame_bus (k : FrameKind) (m : List Byte) : (s.beginFrame k m).bus = (.active ⟨k, m, [], [], .settled⟩) := rfl
@[simp] theorem beginFrame_ticks (k : FrameKind) (m : List Byte) : (s.beginFrame k m).ticks = s.ticks := rfl
@[simp] theorem beginFrame_busReady (k : FrameKind) (m : List Byte) : (s.beginFrame k m).busReady = s.busReady := rfl
@[simp] theorem beginFrame_sensor (k : FrameKind) (m : List Byte) : (s.beginFrame k m).sensor = s.sensor := rfl
@[simp] theorem beginFrame_results (k : FrameKind) (m : List Byte) : (s.beginFrame k m).results = s.results := rfl
@[simp] theorem beginFrame_agenda (k : FrameKind) (m : List Byte) : (s.beginFrame k m).agenda = s.agenda := rfl
@[simp] theorem beginFrame_quantum (k : FrameKind) (m : List Byte) : (s.beginFrame k m).quantum = s.quantum := rfl
@[simp] theorem beginFrame_turns (k : FrameKind) (m : List Byte) : (s.beginFrame k m).turns = s.turns := rfl
@[simp] theorem beginFrame_draws (k : FrameKind) (m : List Byte) : (s.beginFrame k m).draws = s.draws := rfl
@[simp] theorem beginFrame_opResult (k : FrameKind) (m : List Byte) : (s.beginFrame k m).opResult = s.opResult := rfl

/-! ### beginWrite -/

@[simp] theorem beginWrite_cfg (c d : Byte) : (s.beginWrite c d).cfg = s.cfg := rfl
@[simp] theorem beginWrite_state (c d : Byte) : (s.beginWrite c d).state = s.state := rfl
@[simp] theorem beginWrite_kind (c d : Byte) : (s.beginWrite c d).kind = s.kind := rfl
@[simp] theorem beginWrite_busy (c d : Byte) : (s.beginWrite c d).busy = s.busy := rfl
@[simp] theorem beginWrite_cal (c d : Byte) : (s.beginWrite c d).cal = s.cal := rfl
@[simp] theorem beginWrite_raw (c d : Byte) : (s.beginWrite c d).raw = s.raw := rfl
@[simp] theorem beginWrite_tfineI (c d : Byte) : (s.beginWrite c d).tfineI = s.tfineI := rfl
@[simp] theorem beginWrite_tfineF (c d : Byte) : (s.beginWrite c d).tfineF = s.tfineF := rfl
@[simp] theorem beginWrite_resTInt (c d : Byte) : (s.beginWrite c d).resTInt = s.resTInt := rfl
@[simp] theorem beginWrite_resPInt (c d : Byte) : (s.beginWrite c d).resPInt = s.resPInt := rfl
@[simp] theorem beginWrite_resTFlt (c d : Byte) : (s.beginWrite c d).resTFlt = s.resTFlt := rfl
@[simp] theorem beginWrite_resPFlt (c d : Byte) : (s.beginWrite c d).resPFlt = s.resPFlt := rfl
@[simp] theorem beginWrite_pairedI (c d : Byte) : (s.beginWrite c d).pairedI = s.pairedI := rfl
@[simp] theorem beginWrite_pairedF (c d : Byte) : (s.beginWrite c d).pairedF = s.pairedF := rfl
@[simp] theorem beginWrite_xbuf (c d : Byte) : (s.beginWrite c d).xbuf = s.xbuf := rfl
@[simp] theorem beginWrite_cs (c d : Byte) : (s.beginWrite c d).cs = .asserted := rfl
@[simp] theorem beginWrite_hist (c d : Byte) : (s.beginWrite c d).hist = s.hist := rfl
@[simp] theorem beginWrite_phase (c d : Byte) : (s.beginWrite c d).phase = s.phase := rfl
@[simp] theorem beginWrite_cmd (c d : Byte) : (s.beginWrite c d).cmd = s.cmd := rfl
@[simp] theorem beginWrite_settleTarget (c d : Byte) : (s.beginWrite c d).settleTarget = s.settleTarget := rfl
@[simp] theorem beginWrite_faults (c d : Byte) : (s.beginWrite c d).faults = s.faults := rfl
@[simp] theorem beginWrite_bus (c d : Byte) : (s.beginWrite c d).bus = (.active ⟨.write, writeFrame c d, [], [], .settled⟩) := rfl
@[simp] theorem beginWrite_ticks (c d : Byte) : (s.beginWrite c d).ticks = s.ticks := rfl
@[simp] theorem beginWrite_busReady (c d : Byte) : (s.beginWrite c d).busReady = s.busReady := rfl
@[simp] theorem beginWrite_sensor (c d : Byte) : (s.beginWrite c d).sensor = s.sensor := rfl
@[simp] theorem beginWrite_results (c d : Byte) : (s.beginWrite c d).results = s.results := rfl
@[simp] theorem beginWrite_agenda (c d : Byte) : (s.beginWrite c d).agenda = s.agenda := rfl
@[simp] theorem beginWrite_quantum (c d : Byte) : (s.beginWrite c d).quantum = s.quantum := rfl
@[simp] theorem beginWrite_turns (c d : Byte) : (s.beginWrite c d).turns = s.turns := rfl
@[simp] theorem beginWrite_draws (c d : Byte) : (s.beginWrite c d).draws = s.draws := rfl
@[simp] theorem beginWrite_opResult (c d : Byte) : (s.beginWrite c d).opResult = s.opResult := rfl

/-! ### beginRead -/

@[simp] theorem beginRead_cfg (a : Byte) (n : Nat) : (s.beginRead a n).cfg = s.cfg := rfl
@[simp] theorem beginRead_state (a : Byte) (n : Nat) : (s.beginRead a n).state = s.state := rfl
@[simp] theorem beginRead_kind (a : Byte) (n : Nat) : (s.beginRead a n).kind = s.kind := rfl
@[simp] theorem beginRead_busy (a : Byte) (n : Nat) : (s.beginRead a n).busy = s.busy := rfl
@[simp] theorem beginRead_cal (a : Byte) (n : Nat) : (s.beginRead a n).cal = s.cal := rfl
@[simp] theorem beginRead_raw (a : Byte) (n : Nat) : (s.beginRead a n).raw = s.raw := rfl
@[simp] theorem beginRead_tfineI (a : Byte) (n : Nat) : (s.beginRead a n).tfineI = s.tfineI := rfl
@[simp] theorem beginRead_tfineF (a : Byte) (n : Nat) : (s.beginRead a n).tfineF = s.tfineF := rfl
@[simp] theorem beginRead_resTInt (a : Byte) (n : Nat) : (s.beginRead a n).resTInt = s.resTInt := rfl
@[simp] theorem beginRead_resPInt (a : Byte) (n : Nat) : (s.beginRead a n).resPInt = s.resPInt := rfl
@[simp] theorem beginRead_resTFlt (a : Byte) (n : Nat) : (s.beginRead a n).resTFlt = s.resTFlt := rfl
@[simp] theorem beginRead_resPFlt (a : Byte) (n : Nat) : (s.beginRead a n).resPFlt = s.resPFlt := rfl
@[simp] theorem beginRead_pairedI (a : Byte) (n : Nat) : (s.beginRead a n).pairedI = s.pairedI := rfl
@[simp] theorem beginRead_pairedF (a : Byte) (n : Nat) : (s.beginRead a n).pairedF = s.pairedF := rfl
@[simp] theorem beginRead_xbuf (a : Byte) (n : Nat) : (s.beginRead a n).xbuf = (setHead a s.xbuf) := rfl
@[simp] theorem beginRead_cs (a : Byte) (n : Nat) : (s.beginRead a n).cs = .asserted := rfl
@[simp] theorem beginRead_hist (a : Byte) (n : Nat) : (s.beginRead a n).hist = s.hist := rfl
@[simp] theorem beginRead_phase (a : Byte) (n : Nat) : (s.beginRead a n).phase = s.phase := rfl
@[simp] theorem beginRead_cmd (a : Byte) (n : Nat) : (s.beginRead a n).cmd = s.cmd := rfl
@[simp] theorem beginRead_settleTarget (a : Byte) (n : Nat) : (s.beginRead a n).settleTarget = s.settleTarget := rfl
@[simp] theorem beginRead_faults (a : Byte) (n : Nat) : (s.beginRead a n).faults = s.faults := rfl
@[simp] theorem beginRead_bus (a : Byte) (n : Nat) : (s.beginRead a n).bus = (.active ⟨.read n, readFrame a n, [], [], .settled⟩) := rfl
@[simp] theorem beginRead_ticks (a : Byte) (n : Nat) : (s.beginRead a n).ticks = s.ticks := rfl
@[simp] theorem beginRead_busReady (a : Byte) (n : Nat) : (s.beginRead a n).busReady = s.busReady := rfl
@[simp] theorem beginRead_sensor (a : Byte) (n : Nat) : (s.beginRead a n).sensor = s.sensor := rfl
@[simp] theorem beginRead_results (a : Byte) (n : Nat) : (s.beginRead a n).results = s.results := rfl
@[simp] theorem beginRead_agenda (a : Byte) (n : Nat) : (s.beginRead a n).agenda = s.agenda := rfl
@[simp] theorem beginRead_quantum (a : Byte) (n : Nat) : (s.beginRead a n).quantum = s.quantum := rfl
@[simp] theorem beginRead_turns (a : Byte) (n : Nat) : (s.beginRead a n).turns = s.turns := rfl
@[simp] theorem beginRead_draws (a : Byte) (n : Nat) : (s.beginRead a n).draws = s.draws := rfl
@[simp] theorem beginRead_opResult (a : Byte) (n : Nat) : (s.beginRead a n).opResult = s.opResult := rfl

/-! ### shiftByte -/

@[simp] theorem shiftByte_cfg (f : Frame) (m : Byte) (r : List Byte) : (s.shiftByte f m r).cfg = s.cfg := rfl
@[simp] theorem shiftByte_state (f : Frame) (m : Byte) (r : List Byte) : (s.shiftByte f m r).state = s.state := rfl
@[simp] theorem shiftByte_kind (f : Frame) (m : Byte) (r : List Byte) : (s.shiftByte f m r).kind = s.kind := rfl
@[simp] theorem shiftByte_busy (f : Frame) (m : Byte) (r : List Byte) : (s.shiftByte f m r).busy = s.busy := rfl
@[simp] theorem shiftByte_cal (f : Frame) (m : Byte) (r : List Byte) : (s.shiftByte f m r).cal = s.cal := rfl
@[simp] theorem shiftByte_raw (f : Frame) (m : Byte) (r : List Byte) : (s.shiftByte f m r).raw = s.raw := rfl
@[simp] theorem shiftByte_tfineI (f : Frame) (m : Byte) (r : List Byte) : (s.shiftByte f m r).tfineI = s.tfineI := rfl
@[simp] theorem shiftByte_tfineF (f : Frame) (m : Byte) (r : List Byte) : (s.shiftByte f m r).tfineF = s.tfineF := rfl
@[simp] theorem shiftByte_resTInt (f : Frame) (m : Byte) (r : List Byte) : (s.shiftByte f m r).resTInt = s.resTInt := rfl
@[simp] theorem shiftByte_resPInt (f : Frame) (m : Byte) (r : List Byte) : (s.shiftByte f m r).resPInt = s.resPInt := rfl
@[simp] theorem shiftByte_resTFlt (f : Frame) (m : Byte) (r : List Byte) : (s.shiftByte f m r).resTFlt = s.resTFlt := rfl
@[simp] theorem shiftByte_resPFlt (f : Frame) (m : Byte) (r : List Byte) : (s.shiftByte f m r).resPFlt = s.resPFlt := rfl
@[simp] theorem shiftByte_pairedI (f : Frame) (m : Byte) (r : List Byte) : (s.shiftByte f m r).pairedI = s.pairedI := rfl
@[simp] theorem shiftByte_pairedF (f : Frame) (m : Byte) (r : List Byte) : (s.shiftByte f m r).pairedF = s.pairedF := rfl
@[simp] theorem shiftByte_xbuf (f : Frame) (m : Byte) (r : List Byte) : (s.shiftByte f m r).xbuf = s.xbuf := rfl
@[simp] theorem shiftByte_cs (f : Frame) (m : Byte) (r : List Byte) : (s.shiftByte f m r).cs = s.cs := rfl
@[simp] theorem shiftByte_hist (f : Frame) (m : Byte) (r : List Byte) : (s.shiftByte f m r).hist = s.hist := rfl
@[simp] theorem shiftByte_phase (f : Frame) (m : Byte) (r : List Byte) : (s.shiftByte f m r).phase = s.phase := rfl
@[simp] theorem shiftByte_cmd (f : Frame) (m : Byte) (r : List Byte) : (s.shiftByte f m r).cmd = s.cmd := rfl
@[simp] theorem shiftByte_settleTarget (f : Frame) (m : Byte) (r : List Byte) : (s.shiftByte f m r).settleTarget = s.settleTarget := rfl
@[simp] theorem shiftByte_faults (f : Frame) (m : Byte) (r : List Byte) : (s.shiftByte f m r).faults = s.faults := rfl
@[simp] theorem shiftByte_bus (f : Frame) (m : Byte) (r : List Byte) : (s.shiftByte f m r).bus = (.active ⟨f.kind, r, f.sent ++ [m], f.got ++ [s.misoByte f], .accepted⟩) := rfl
@[simp] theorem shiftByte_ticks (f : Frame) (m : Byte) (r : List Byte) : (s.shiftByte f m r).ticks = s.ticks := rfl
@[simp] theorem shiftByte_busReady (f : Frame) (m : Byte) (r : List Byte) : (s.shiftByte f m r).busReady = s.busReady := rfl
@[simp] theorem shiftByte_sensor (f : Frame) (m : Byte) (r : List Byte) : (s.shiftByte f m r).sensor = s.sensor.tail := rfl
@[simp] theorem shiftByte_results (f : Frame) (m : Byte) (r : List Byte) : (s.shiftByte f m r).results = s.results := rfl
@[simp] theorem shiftByte_agenda (f : Frame) (m : Byte) (r : List Byte) : (s.shiftByte f m r).agenda = s.agenda := rfl
@[simp] theorem shiftByte_quantum (f : Frame) (m : Byte) (r : List Byte) : (s.shiftByte f m r).quantum = s.quantum := rfl
@[simp] theorem shiftByte_turns (f : Frame) (m : Byte) (r : List Byte) : (s.shiftByte f m r).turns = s.turns := rfl
@[simp] theorem shiftByte_draws (f : Frame) (m : Byte) (r : List Byte) : (s.shiftByte f m r).draws = (s.draws + 1) := rfl
@[simp] theorem shiftByte_opResult (f : Frame) (m : Byte) (r : List Byte) : (s.shiftByte f m r).opResult = s.opResult := rfl

/-! ### finishFrame -/

@[simp] theorem finishFrame_cfg (f : Frame) : (s.finishFrame f).cfg = s.cfg := rfl
@[simp] theorem finishFrame_state (f : Frame) : (s.finishFrame f).state = s.state := rfl
@[simp] theorem finishFrame_kind (f : Frame) : (s.finishFrame f).kind = s.kind := rfl
@[simp] theorem finishFrame_busy (f : Frame) : (s.finishFrame f).busy = s.busy := rfl
@[simp] theorem finishFrame_cal (f : Frame) : (s.finishFrame f).cal = s.cal := rfl
@[simp] theorem finishFrame_raw (f : Frame) : (s.finishFrame f).raw = s.raw := rfl
@[simp] theorem finishFrame_tfineI (f : Frame) : (s.finishFrame f).tfineI = s.tfineI := rfl
@[simp] theorem finishFrame_tfineF (f : Frame) : (s.finishFrame f).tfineF = s.tfineF := rfl
@[simp] theorem finishFrame_resTInt (f : Frame) : (s.finishFrame f).resTInt = s.resTInt := rfl
@[simp] theorem finishFrame_resPInt (f : Frame) : (s.finishFrame f).resPInt = s.resPInt := rfl
@[simp] theorem finishFrame_resTFlt (f : Frame) : (s.finishFrame f).resTFlt = s.resTFlt := rfl
@[simp] theorem finishFrame_resPFlt (f : Frame) : (s.finishFrame f).resPFlt = s.resPFlt := rfl
@[simp] theorem finishFrame_pairedI (f : Frame) : (s.finishFrame f).pairedI = s.pairedI := rfl
@[simp] theorem finishFrame_pairedF (f : Frame) : (s.finishFrame f).pairedF = s.pairedF := rfl
@[simp] theorem finishFrame_xbuf (f : Frame) : (s.finishFrame f).xbuf = (match f.kind with | .write => s.xbuf | .read count => captured count f.got s.xbuf) := rfl
@[simp] theorem finishFrame_cs (f : Frame) : (s.finishFrame f).cs = .released := rfl
@[simp] theorem finishFrame_hist (f : Frame) : (s.finishFrame f).hist = (s.hist ++ [⟨f.sent, f.got⟩]) := rfl
@[simp] theorem finishFrame_phase (f : Frame) : (s.finishFrame f).phase = s.phase := rfl
@[simp] theorem finishFrame_cmd (f : Frame) : (s.finishFrame f).cmd = s.cmd := rfl
@[simp] theorem finishFrame_settleTarget (f : Frame) : (s.finishFrame f).settleTarget = s.settleTarget := rfl
@[simp] theorem finishFrame_faults (f : Frame) : (s.finishFrame f).faults = s.faults := rfl
@[simp] theorem finishFrame_bus (f : Frame) : (s.finishFrame f).bus = .done := rfl
@[simp] theorem finishFrame_ticks (f : Frame) : (s.finishFrame f).ticks = s.ticks := rfl
@[simp] theorem finishFrame_busReady (f : Frame) : (s.finishFrame f).busReady = s.busReady := rfl
@[simp] theorem finishFrame_sensor (f : Frame) : (s.finishFrame f).sensor = s.sensor := rfl
@[simp] theorem finishFrame_results (f : Frame) : (s.finishFrame f).results = s.results := rfl
@[simp] theorem finishFrame_agenda (f : Frame) : (s.finishFrame f).agenda = s.agenda := rfl
@[simp] theorem finishFrame_quantum (f : Frame) : (s.finishFrame f).quantum = s.quantum := rfl
@[simp] theorem finishFrame_turns (f : Frame) : (s.finishFrame f).turns = s.turns := rfl
@[simp] theorem finishFrame_draws (f : Frame) : (s.finishFrame f).draws = s.draws := rfl
@[simp] theorem finishFrame_opResult (f : Frame) : (s.finishFrame f).opResult = s.opResult := rfl

/-! ### moveTaken -/

@[simp] theorem moveTaken_cfg : (s.moveTaken).cfg = s.cfg := rfl
@[simp] theorem moveTaken_state : (s.moveTaken).state = s.state := rfl
@[simp] theorem moveTaken_kind : (s.moveTaken).kind = s.kind := rfl
@[simp] theorem moveTaken_busy : (s.moveTaken).busy = s.busy := rfl
@[simp] theorem moveTaken_cal : (s.moveTaken).cal = s.cal := rfl
@[simp] theorem moveTaken_raw : (s.moveTaken).raw = s.raw := rfl
@[simp] theorem moveTaken_tfineI : (s.moveTaken).tfineI = s.tfineI := rfl
@[simp] theorem moveTaken_tfineF : (s.moveTaken).tfineF = s.tfineF := rfl
@[simp] theorem moveTaken_resTInt : (s.moveTaken).resTInt = s.resTInt := rfl
@[simp] theorem moveTaken_resPInt : (s.moveTaken).resPInt = s.resPInt := rfl
@[simp] theorem moveTaken_resTFlt : (s.moveTaken).resTFlt = s.resTFlt := rfl
@[simp] theorem moveTaken_resPFlt : (s.moveTaken).resPFlt = s.resPFlt := rfl
@[simp] theorem moveTaken_pairedI : (s.moveTaken).pairedI = s.pairedI := rfl
@[simp] theorem moveTaken_pairedF : (s.moveTaken).pairedF = s.pairedF := rfl
@[simp] theorem moveTaken_xbuf : (s.moveTaken).xbuf = s.xbuf := rfl
@[simp] theorem moveTaken_cs : (s.moveTaken).cs = s.cs := rfl
@[simp] theorem moveTaken_hist : (s.moveTaken).hist = s.hist := rfl
@[simp] theorem moveTaken_phase : (s.moveTaken).phase = s.phase := rfl
@[simp] theorem moveTaken_cmd : (s.moveTaken).cmd = s.cmd := rfl
@[simp] theorem moveTaken_settleTarget : (s.moveTaken).settleTarget = s.settleTarget := rfl
@[simp] theorem moveTaken_faults : (s.moveTaken).faults = s.faults := rfl
@[simp] theorem moveTaken_bus : (s.moveTaken).bus = s.bus := rfl
@[simp] theorem moveTaken_ticks : (s.moveTaken).ticks = s.ticks := rfl
@[simp] theorem moveTaken_busReady : (s.moveTaken).busReady = s.busReady := rfl
@[simp] theorem moveTaken_sensor : (s.moveTaken).sensor = s.sensor := rfl
@[simp] theorem moveTaken_results : (s.moveTaken).results = s.results := rfl
@[simp] theorem moveTaken_agenda : (s.moveTaken).agenda = s.agenda.tail := rfl
@[simp] theorem moveTaken_quantum : (s.moveTaken).quantum = s.quantum := rfl
@[simp] theorem moveTaken_turns : (s.moveTaken).turns = (if s.agenda = [] then s.turns + 1 else s.turns) := rfl
@[simp] theorem moveTaken_draws : (s.moveTaken).draws = s.draws := rfl
@[simp] theorem moveTaken_opResult : (s.moveTaken).opResult = s.opResult := rfl

/-! ### takeReset -/

@[simp] theorem takeReset_cfg : (s.takeReset).cfg = s.cfg := rfl
@[simp] theorem takeReset_state : (s.takeReset).state = .uninit := rfl
@[simp] theorem takeReset_kind : (s.takeReset).kind = .unknown := rfl
@[simp] theorem takeReset_busy : (s.takeReset).busy = false := rfl
@[simp] theorem takeReset_cal : (s.takeReset).cal = CalibrationSet.zero := rfl
@[simp] theorem takeReset_raw : (s.takeReset).raw = RawSample.zero := rfl
@[simp] theorem takeReset_tfineI : (s.takeReset).tfineI = 0 := rfl
@[simp] theorem takeReset_tfineF : (s.takeReset).tfineF = (TfineF.zero s.cfg.floatTfineKind) := rfl
@[simp] theorem takeReset_resTInt : (s.takeReset).resTInt = 0 := rfl
@[simp] theorem takeReset_resPInt : (s.takeReset).resPInt = 0 := rfl
@[simp] theorem takeReset_resTFlt : (s.takeReset).resTFlt = 0 := rfl
@[simp] theorem takeReset_resPFlt : (s.takeReset).resPFlt = 0 := rfl
@[simp] theorem takeReset_pairedI : (s.takeReset).pairedI = false := rfl
@[simp] theorem takeReset_pairedF : (s.takeReset).pairedF = false := rfl
@[simp] theorem takeReset_xbuf : (s.takeReset).xbuf = (List.replicate s.cfg.xbufLen 0) := rfl
@[simp] theorem takeReset_cs : (s.takeReset).cs = .released := rfl
@[simp] theorem takeReset_hist : (s.takeReset).hist = s.hist := rfl
@[simp] theorem takeReset_phase : (s.takeReset).phase = .idle := rfl
@[simp] theorem takeReset_cmd : (s.takeReset).cmd = 0 := rfl
@[simp] theorem takeReset_settleTarget : (s.takeReset).settleTarget = 0 := rfl
@[simp] theorem takeReset_faults : (s.takeReset).faults = s.faults := rfl
@[simp] theorem takeReset_bus : (s.takeReset).bus = .idle := rfl
@[simp] theorem takeReset_ticks : (s.takeReset).ticks = (Config.ticksAfterReset s.draws) := rfl
@[simp] theorem takeReset_busReady : (s.takeReset).busReady = s.busReady := rfl
@[simp] theorem takeReset_sensor : (s.takeReset).sensor = s.sensor := rfl
@[simp] theorem takeReset_results : (s.takeReset).results = s.results := rfl
@[simp] theorem takeReset_agenda : (s.takeReset).agenda = s.agenda := rfl
@[simp] theorem takeReset_quantum : (s.takeReset).quantum = s.quantum := rfl
@[simp] theorem takeReset_turns : (s.takeReset).turns = s.turns := rfl
@[simp] theorem takeReset_draws : (s.takeReset).draws = (s.draws + 1) := rfl
@[simp] theorem takeReset_opResult : (s.takeReset).opResult = none := rfl

end Sys2Proof.Machine
end

