-- ==== Sys2Proof/Laws/Effects.lean ====
section
/-!
SUPPORT. What each whole-operation effect leaves in each field of State, true by rfl and in the simp set.
-/

namespace Sys2Proof.Machine

variable (s : State)

/-! ### transact -/

@[simp] theorem transact_cfg (m : List Byte) : (s.transact m).cfg = s.cfg := rfl
@[simp] theorem transact_state (m : List Byte) : (s.transact m).state = s.state := rfl
@[simp] theorem transact_kind (m : List Byte) : (s.transact m).kind = s.kind := rfl
@[simp] theorem transact_busy (m : List Byte) : (s.transact m).busy = s.busy := rfl
@[simp] theorem transact_cal (m : List Byte) : (s.transact m).cal = s.cal := rfl
@[simp] theorem transact_raw (m : List Byte) : (s.transact m).raw = s.raw := rfl
@[simp] theorem transact_tfineI (m : List Byte) : (s.transact m).tfineI = s.tfineI := rfl
@[simp] theorem transact_tfineF (m : List Byte) : (s.transact m).tfineF = s.tfineF := rfl
@[simp] theorem transact_resTInt (m : List Byte) : (s.transact m).resTInt = s.resTInt := rfl
@[simp] theorem transact_resPInt (m : List Byte) : (s.transact m).resPInt = s.resPInt := rfl
@[simp] theorem transact_resTFlt (m : List Byte) : (s.transact m).resTFlt = s.resTFlt := rfl
@[simp] theorem transact_resPFlt (m : List Byte) : (s.transact m).resPFlt = s.resPFlt := rfl
@[simp] theorem transact_pairedI (m : List Byte) : (s.transact m).pairedI = s.pairedI := rfl
@[simp] theorem transact_pairedF (m : List Byte) : (s.transact m).pairedF = s.pairedF := rfl
@[simp] theorem transact_xbuf (m : List Byte) : (s.transact m).xbuf = s.xbuf := rfl
@[simp] theorem transact_cs (m : List Byte) : (s.transact m).cs = .released := rfl
@[simp] theorem transact_hist (m : List Byte) : (s.transact m).hist = (s.hist ++ [⟨m, misoOf s m⟩]) := rfl
@[simp] theorem transact_phase (m : List Byte) : (s.transact m).phase = s.phase := rfl
@[simp] theorem transact_cmd (m : List Byte) : (s.transact m).cmd = s.cmd := rfl
@[simp] theorem transact_settleTarget (m : List Byte) : (s.transact m).settleTarget = s.settleTarget := rfl
@[simp] theorem transact_faults (m : List Byte) : (s.transact m).faults = s.faults := rfl
@[simp] theorem transact_bus (m : List Byte) : (s.transact m).bus = .done := rfl
@[simp] theorem transact_ticks (m : List Byte) : (s.transact m).ticks = s.ticks := rfl
@[simp] theorem transact_busReady (m : List Byte) : (s.transact m).busReady = s.busReady := rfl
@[simp] theorem transact_sensor (m : List Byte) : (s.transact m).sensor = (s.sensor.drop m.length) := rfl
@[simp] theorem transact_results (m : List Byte) : (s.transact m).results = s.results := rfl
@[simp] theorem transact_agenda (m : List Byte) : (s.transact m).agenda = s.agenda := rfl
@[simp] theorem transact_quantum (m : List Byte) : (s.transact m).quantum = s.quantum := rfl
@[simp] theorem transact_turns (m : List Byte) : (s.transact m).turns = s.turns := rfl
@[simp] theorem transact_draws (m : List Byte) : (s.transact m).draws = (s.draws + m.length) := rfl
@[simp] theorem transact_opResult (m : List Byte) : (s.transact m).opResult = s.opResult := rfl

/-! ### writeAll -/

@[simp] theorem writeAll_cfg (c d : Byte) : (s.writeAll c d).cfg = s.cfg := rfl
@[simp] theorem writeAll_state (c d : Byte) : (s.writeAll c d).state = s.state := rfl
@[simp] theorem writeAll_kind (c d : Byte) : (s.writeAll c d).kind = s.kind := rfl
@[simp] theorem writeAll_busy (c d : Byte) : (s.writeAll c d).busy = s.busy := rfl
@[simp] theorem writeAll_cal (c d : Byte) : (s.writeAll c d).cal = s.cal := rfl
@[simp] theorem writeAll_raw (c d : Byte) : (s.writeAll c d).raw = s.raw := rfl
@[simp] theorem writeAll_tfineI (c d : Byte) : (s.writeAll c d).tfineI = s.tfineI := rfl
@[simp] theorem writeAll_tfineF (c d : Byte) : (s.writeAll c d).tfineF = s.tfineF := rfl
@[simp] theorem writeAll_resTInt (c d : Byte) : (s.writeAll c d).resTInt = s.resTInt := rfl
@[simp] theorem writeAll_resPInt (c d : Byte) : (s.writeAll c d).resPInt = s.resPInt := rfl
@[simp] theorem writeAll_resTFlt (c d : Byte) : (s.writeAll c d).resTFlt = s.resTFlt := rfl
@[simp] theorem writeAll_resPFlt (c d : Byte) : (s.writeAll c d).resPFlt = s.resPFlt := rfl
@[simp] theorem writeAll_pairedI (c d : Byte) : (s.writeAll c d).pairedI = s.pairedI := rfl
@[simp] theorem writeAll_pairedF (c d : Byte) : (s.writeAll c d).pairedF = s.pairedF := rfl
@[simp] theorem writeAll_xbuf (c d : Byte) : (s.writeAll c d).xbuf = s.xbuf := rfl
@[simp] theorem writeAll_cs (c d : Byte) : (s.writeAll c d).cs = .released := rfl
@[simp] theorem writeAll_hist (c d : Byte) : (s.writeAll c d).hist = (s.hist ++ [⟨writeFrame c d, misoOf s (writeFrame c d)⟩]) := rfl
@[simp] theorem writeAll_phase (c d : Byte) : (s.writeAll c d).phase = s.phase := rfl
@[simp] theorem writeAll_cmd (c d : Byte) : (s.writeAll c d).cmd = s.cmd := rfl
@[simp] theorem writeAll_settleTarget (c d : Byte) : (s.writeAll c d).settleTarget = s.settleTarget := rfl
@[simp] theorem writeAll_faults (c d : Byte) : (s.writeAll c d).faults = s.faults := rfl
@[simp] theorem writeAll_bus (c d : Byte) : (s.writeAll c d).bus = .done := rfl
@[simp] theorem writeAll_ticks (c d : Byte) : (s.writeAll c d).ticks = s.ticks := rfl
@[simp] theorem writeAll_busReady (c d : Byte) : (s.writeAll c d).busReady = s.busReady := rfl
@[simp] theorem writeAll_sensor (c d : Byte) : (s.writeAll c d).sensor = (s.sensor.drop 2) := rfl
@[simp] theorem writeAll_results (c d : Byte) : (s.writeAll c d).results = s.results := rfl
@[simp] theorem writeAll_agenda (c d : Byte) : (s.writeAll c d).agenda = s.agenda := rfl
@[simp] theorem writeAll_quantum (c d : Byte) : (s.writeAll c d).quantum = s.quantum := rfl
@[simp] theorem writeAll_turns (c d : Byte) : (s.writeAll c d).turns = s.turns := rfl
@[simp] theorem writeAll_draws (c d : Byte) : (s.writeAll c d).draws = (s.draws + 2) := rfl
@[simp] theorem writeAll_opResult (c d : Byte) : (s.writeAll c d).opResult = s.opResult := rfl

/-! ### readAll -/

@[simp] theorem readAll_cfg (a : Byte) (n : Nat) : (s.readAll a n).cfg = s.cfg := rfl
@[simp] theorem readAll_state (a : Byte) (n : Nat) : (s.readAll a n).state = s.state := rfl
@[simp] theorem readAll_kind (a : Byte) (n : Nat) : (s.readAll a n).kind = s.kind := rfl
@[simp] theorem readAll_busy (a : Byte) (n : Nat) : (s.readAll a n).busy = s.busy := rfl
@[simp] theorem readAll_cal (a : Byte) (n : Nat) : (s.readAll a n).cal = s.cal := rfl
@[simp] theorem readAll_raw (a : Byte) (n : Nat) : (s.readAll a n).raw = s.raw := rfl
@[simp] theorem readAll_tfineI (a : Byte) (n : Nat) : (s.readAll a n).tfineI = s.tfineI := rfl
@[simp] theorem readAll_tfineF (a : Byte) (n : Nat) : (s.readAll a n).tfineF = s.tfineF := rfl
@[simp] theorem readAll_resTInt (a : Byte) (n : Nat) : (s.readAll a n).resTInt = s.resTInt := rfl
@[simp] theorem readAll_resPInt (a : Byte) (n : Nat) : (s.readAll a n).resPInt = s.resPInt := rfl
@[simp] theorem readAll_resTFlt (a : Byte) (n : Nat) : (s.readAll a n).resTFlt = s.resTFlt := rfl
@[simp] theorem readAll_resPFlt (a : Byte) (n : Nat) : (s.readAll a n).resPFlt = s.resPFlt := rfl
@[simp] theorem readAll_pairedI (a : Byte) (n : Nat) : (s.readAll a n).pairedI = s.pairedI := rfl
@[simp] theorem readAll_pairedF (a : Byte) (n : Nat) : (s.readAll a n).pairedF = s.pairedF := rfl
@[simp] theorem readAll_xbuf (a : Byte) (n : Nat) : (s.readAll a n).xbuf = (readBuffer a n s) := rfl
@[simp] theorem readAll_cs (a : Byte) (n : Nat) : (s.readAll a n).cs = .released := rfl
@[simp] theorem readAll_hist (a : Byte) (n : Nat) : (s.readAll a n).hist = (s.hist ++ [⟨readFrame a n, misoOf s (readFrame a n)⟩]) := rfl
@[simp] theorem readAll_phase (a : Byte) (n : Nat) : (s.readAll a n).phase = s.phase := rfl
@[simp] theorem readAll_cmd (a : Byte) (n : Nat) : (s.readAll a n).cmd = s.cmd := rfl
@[simp] theorem readAll_settleTarget (a : Byte) (n : Nat) : (s.readAll a n).settleTarget = s.settleTarget := rfl
@[simp] theorem readAll_faults (a : Byte) (n : Nat) : (s.readAll a n).faults = s.faults := rfl
@[simp] theorem readAll_bus (a : Byte) (n : Nat) : (s.readAll a n).bus = .done := rfl
@[simp] theorem readAll_ticks (a : Byte) (n : Nat) : (s.readAll a n).ticks = s.ticks := rfl
@[simp] theorem readAll_busReady (a : Byte) (n : Nat) : (s.readAll a n).busReady = s.busReady := rfl
@[simp] theorem readAll_sensor (a : Byte) (n : Nat) : (s.readAll a n).sensor = (s.sensor.drop (readFrame a n).length) := rfl
@[simp] theorem readAll_results (a : Byte) (n : Nat) : (s.readAll a n).results = s.results := rfl
@[simp] theorem readAll_agenda (a : Byte) (n : Nat) : (s.readAll a n).agenda = s.agenda := rfl
@[simp] theorem readAll_quantum (a : Byte) (n : Nat) : (s.readAll a n).quantum = s.quantum := rfl
@[simp] theorem readAll_turns (a : Byte) (n : Nat) : (s.readAll a n).turns = s.turns := rfl
@[simp] theorem readAll_draws (a : Byte) (n : Nat) : (s.readAll a n).draws = (s.draws + (readFrame a n).length) := rfl
@[simp] theorem readAll_opResult (a : Byte) (n : Nat) : (s.readAll a n).opResult = s.opResult := rfl

/-! ### exit -/

@[simp] theorem exit_cfg (st : Status) (v : Option Value) : (s.exit st v).cfg = s.cfg := rfl
@[simp] theorem exit_state (st : Status) (v : Option Value) : (s.exit st v).state = s.state := rfl
@[simp] theorem exit_kind (st : Status) (v : Option Value) : (s.exit st v).kind = s.kind := rfl
@[simp] theorem exit_busy (st : Status) (v : Option Value) : (s.exit st v).busy = false := rfl
@[simp] theorem exit_cal (st : Status) (v : Option Value) : (s.exit st v).cal = s.cal := rfl
@[simp] theorem exit_raw (st : Status) (v : Option Value) : (s.exit st v).raw = s.raw := rfl
@[simp] theorem exit_tfineI (st : Status) (v : Option Value) : (s.exit st v).tfineI = s.tfineI := rfl
@[simp] theorem exit_tfineF (st : Status) (v : Option Value) : (s.exit st v).tfineF = s.tfineF := rfl
@[simp] theorem exit_resTInt (st : Status) (v : Option Value) : (s.exit st v).resTInt = s.resTInt := rfl
@[simp] theorem exit_resPInt (st : Status) (v : Option Value) : (s.exit st v).resPInt = s.resPInt := rfl
@[simp] theorem exit_resTFlt (st : Status) (v : Option Value) : (s.exit st v).resTFlt = s.resTFlt := rfl
@[simp] theorem exit_resPFlt (st : Status) (v : Option Value) : (s.exit st v).resPFlt = s.resPFlt := rfl
@[simp] theorem exit_pairedI (st : Status) (v : Option Value) : (s.exit st v).pairedI = s.pairedI := rfl
@[simp] theorem exit_pairedF (st : Status) (v : Option Value) : (s.exit st v).pairedF = s.pairedF := rfl
@[simp] theorem exit_xbuf (st : Status) (v : Option Value) : (s.exit st v).xbuf = s.xbuf := rfl
@[simp] theorem exit_cs (st : Status) (v : Option Value) : (s.exit st v).cs = s.cs := rfl
@[simp] theorem exit_hist (st : Status) (v : Option Value) : (s.exit st v).hist = s.hist := rfl
@[simp] theorem exit_phase (st : Status) (v : Option Value) : (s.exit st v).phase = .idle := rfl
@[simp] theorem exit_cmd (st : Status) (v : Option Value) : (s.exit st v).cmd = s.cmd := rfl
@[simp] theorem exit_settleTarget (st : Status) (v : Option Value) : (s.exit st v).settleTarget = s.settleTarget := rfl
@[simp] theorem exit_faults (st : Status) (v : Option Value) : (s.exit st v).faults = s.faults := rfl
@[simp] theorem exit_bus (st : Status) (v : Option Value) : (s.exit st v).bus = .idle := rfl
@[simp] theorem exit_ticks (st : Status) (v : Option Value) : (s.exit st v).ticks = s.ticks := rfl
@[simp] theorem exit_busReady (st : Status) (v : Option Value) : (s.exit st v).busReady = s.busReady := rfl
@[simp] theorem exit_sensor (st : Status) (v : Option Value) : (s.exit st v).sensor = s.sensor := rfl
@[simp] theorem exit_results (st : Status) (v : Option Value) : (s.exit st v).results = (s.results ++ [⟨st, v⟩]) := rfl
@[simp] theorem exit_agenda (st : Status) (v : Option Value) : (s.exit st v).agenda = s.agenda := rfl
@[simp] theorem exit_quantum (st : Status) (v : Option Value) : (s.exit st v).quantum = s.quantum := rfl
@[simp] theorem exit_turns (st : Status) (v : Option Value) : (s.exit st v).turns = s.turns := rfl
@[simp] theorem exit_draws (st : Status) (v : Option Value) : (s.exit st v).draws = s.draws := rfl
@[simp] theorem exit_opResult (st : Status) (v : Option Value) : (s.exit st v).opResult = s.opResult := rfl

/-! ### settleAll -/

@[simp] theorem settleAll_cfg : (s.settleAll).cfg = s.cfg := rfl
@[simp] theorem settleAll_state : (s.settleAll).state = s.state := rfl
@[simp] theorem settleAll_kind : (s.settleAll).kind = s.kind := rfl
@[simp] theorem settleAll_busy : (s.settleAll).busy = s.busy := rfl
@[simp] theorem settleAll_cal : (s.settleAll).cal = s.cal := rfl
@[simp] theorem settleAll_raw : (s.settleAll).raw = s.raw := rfl
@[simp] theorem settleAll_tfineI : (s.settleAll).tfineI = s.tfineI := rfl
@[simp] theorem settleAll_tfineF : (s.settleAll).tfineF = s.tfineF := rfl
@[simp] theorem settleAll_resTInt : (s.settleAll).resTInt = s.resTInt := rfl
@[simp] theorem settleAll_resPInt : (s.settleAll).resPInt = s.resPInt := rfl
@[simp] theorem settleAll_resTFlt : (s.settleAll).resTFlt = s.resTFlt := rfl
@[simp] theorem settleAll_resPFlt : (s.settleAll).resPFlt = s.resPFlt := rfl
@[simp] theorem settleAll_pairedI : (s.settleAll).pairedI = s.pairedI := rfl
@[simp] theorem settleAll_pairedF : (s.settleAll).pairedF = s.pairedF := rfl
@[simp] theorem settleAll_xbuf : (s.settleAll).xbuf = s.xbuf := rfl
@[simp] theorem settleAll_cs : (s.settleAll).cs = s.cs := rfl
@[simp] theorem settleAll_hist : (s.settleAll).hist = s.hist := rfl
@[simp] theorem settleAll_phase : (s.settleAll).phase = s.phase := rfl
@[simp] theorem settleAll_cmd : (s.settleAll).cmd = s.cmd := rfl
@[simp] theorem settleAll_settleTarget : (s.settleAll).settleTarget = (s.ticks + s.cfg.settleTicks) := rfl
@[simp] theorem settleAll_faults : (s.settleAll).faults = s.faults := rfl
@[simp] theorem settleAll_bus : (s.settleAll).bus = s.bus := rfl
@[simp] theorem settleAll_ticks : (s.settleAll).ticks = (s.ticks + s.cfg.settleTicks) := rfl
@[simp] theorem settleAll_busReady : (s.settleAll).busReady = s.busReady := rfl
@[simp] theorem settleAll_sensor : (s.settleAll).sensor = s.sensor := rfl
@[simp] theorem settleAll_results : (s.settleAll).results = s.results := rfl
@[simp] theorem settleAll_agenda : (s.settleAll).agenda = (s.agenda.drop s.cfg.settleTicks) := rfl
@[simp] theorem settleAll_quantum : (s.settleAll).quantum = s.quantum := rfl
@[simp] theorem settleAll_turns : (s.settleAll).turns = s.turns := rfl
@[simp] theorem settleAll_draws : (s.settleAll).draws = s.draws := rfl
@[simp] theorem settleAll_opResult : (s.settleAll).opResult = s.opResult := rfl

end Sys2Proof.Machine
end

