-- ==== Sys2Proof/Laws/Sequencer.lean ====
section
/-!
SUPPORT. The laws of running SEQ (`seqRun`): one move at a time, composition, induction, and whole transactions in one go.
-/

namespace Sys2Proof.Machine

variable {stop : State → Bool} {s t : State}

@[simp] theorem seqRun_zero : seqRun stop 0 s = s := rfl

/-- A run ends where it must. -/
theorem seqRun_stopped (n : Nat) (h : (s.quiescent || stop s) = true) : seqRun stop n s = s := by
  cases n with
  | zero => rfl
  | succ n => simp only [seqRun, h, if_true]

/-- A run ends where nothing can move. -/
theorem seqRun_stuck (n : Nat) (h : advance s = none) : seqRun stop n s = s := by
  cases n with
  | zero => rfl
  | succ n => simp only [seqRun, h, ite_self]

/-- One move. -/
theorem seqRun_move (n : Nat) (hq : s.quiescent = false) (hs : stop s = false) (h : advance s = some t) :
    seqRun stop (n + 1) s = seqRun stop n t := by
  simp only [seqRun, hq, hs, h, Bool.or_self, Bool.false_eq_true, if_false]

/-- A run is the run of its parts. -/
theorem seqRun_add (m n : Nat) : seqRun stop (m + n) s = seqRun stop n (seqRun stop m s) := by
  induction m generalizing s with
  | zero => simp
  | succ m ih =>
    rw [Nat.succ_add]
    by_cases hs : (s.quiescent || stop s) = true
    · simp only [seqRun_stopped _ hs]
    · cases ha : advance s with
      | none => simp only [seqRun_stuck _ ha]
      | some u =>
        obtain ⟨hq, hs⟩ : s.quiescent = false ∧ stop s = false := by simpa using hs
        rw [seqRun_move _ hq hs ha, seqRun_move _ hq hs ha, ih]

/-- What every move keeps, a run keeps. -/
theorem seqRun_induct (P : State → Prop)
    (step : ∀ a b, P a → a.quiescent = false → stop a = false → advance a = some b → P b) (n : Nat) (h : P s) :
    P (seqRun stop n s) := by
  induction n generalizing s with
  | zero => exact h
  | succ n ih =>
    by_cases hs : (s.quiescent || stop s) = true
    · rwa [seqRun_stopped _ hs]
    · cases ha : advance s with
      | none => rwa [seqRun_stuck _ ha]
      | some u =>
        obtain ⟨hq, hs⟩ : s.quiescent = false ∧ stop s = false := by simpa using hs
        rw [seqRun_move _ hq hs ha]
        exact ih (step _ _ h hq hs ha)

/-- A move is SEQ's, or SEQ waits and TICK or the bus hardware moves. -/
theorem advance_cases (h : advance s = some t) :
    seqMicro s = some t ∨
    (seqMicro s = none ∧ s.waiting = true ∧
      ((∃ rest, s.agenda = .tick :: rest ∧ t = { s with agenda := rest, ticks := s.ticks + 1 }) ∨
        ∃ b rest, s.agenda = .bus b :: rest ∧ t = { s with agenda := rest, busReady := b })) := by
  unfold advance at h
  split at h
  · exact .inl (by simp_all)
  · rename_i hn
    split at h
    · rename_i hw
      refine .inr ⟨hn, hw, ?_⟩
      unfold envMove at h
      split at h
      · rename_i rest ha
        exact .inl ⟨rest, ha, by simpa [State.tick] using h.symm⟩
      · rename_i b rest ha
        exact .inr ⟨b, rest, ha, by simpa using h.symm⟩
      · cases h
    · cases h

theorem advance_of_micro (h : seqMicro s = some t) : advance s = some t := by simp [advance, h]

/-- Everything a micro-step inside a transaction can be. -/
theorem busMicro_cases {f : Frame} (h : busMicro f s = some t) :
    s.busReady = true ∧
      ((f.hold = .quiescent ∧ t = s.finishFrame f) ∨
        (f.hold ≠ .quiescent ∧ f.todo = [] ∧ t = { s with bus := .active { f with hold := .quiescent } }) ∨
        ∃ m rest, f.hold ≠ .quiescent ∧ f.todo = m :: rest ∧ t = s.shiftByte f m rest) := by
  unfold busMicro at h
  split at h
  · rename_i hb
    refine ⟨hb, ?_⟩
    split at h
    · exact .inl ⟨by assumption, by simpa using h.symm⟩
    · exact .inr (.inl ⟨by assumption, by assumption, by simpa using h.symm⟩)
    · exact .inr (.inr ⟨_, _, by assumption, by assumption, by simpa using h.symm⟩)
  · cases h

/-! ## A whole transaction -/

/-- The bytes shifted in while `todo` is shifted out, `sent` being out already. -/
def misoRest (s : State) (sent todo : List Byte) : List Byte :=
  (List.range todo.length).map fun i =>
    (s.sensor[i]?).getD (Config.sensorByte (s.draws + i) s.hist (sent ++ todo) (sent.length + i))

theorem misoRest_cons (s : State) (sent : List Byte) (m : Byte) (todo : List Byte) (f : Frame)
    (hs : f.sent = sent) (ht : f.todo = m :: todo) :
    misoRest s sent (m :: todo) =
      s.misoByte f :: misoRest (s.shiftByte f m todo) (sent ++ [m]) todo := by
  subst hs
  simp only [misoRest, List.length_cons, List.range_succ_eq_map, List.map_cons, List.map_map]
  congr 1
  · cases hc : s.sensor <;> simp [State.misoByte, hc, ht]
  · apply List.map_congr_left
    intro i _
    cases hc : s.sensor <;> simp [hc, Nat.add_assoc, Nat.add_comm 1 i]

/-- The bytes of a transaction go out and in one by one. -/
theorem seqRun_shift (kind : FrameKind) (todo sent got : List Byte) (hold : BusHold) (n : Nat) (s : State)
    (hb : s.bus = .active ⟨kind, todo, sent, got, hold⟩) (hh : hold ≠ .quiescent) (hr : s.busReady = true)
    (hq : s.quiescent = false) (hs : ∀ u : State, u.inTransaction = true → stop u = false) :
    seqRun stop (todo.length + 1 + n) s =
      seqRun stop n
        { s with
          bus := .active ⟨kind, [], sent ++ todo, got ++ misoRest s sent todo, .quiescent⟩
          sensor := s.sensor.drop todo.length
          draws := s.draws + todo.length } := by
  induction todo generalizing s sent got hold with
  | nil =>
    have hm : seqMicro s = some { s with bus := .active ⟨kind, [], sent, got, .quiescent⟩ } := by
      cases hold <;> simp_all [seqMicro, busMicro]
    rw [show ([] : List Byte).length + 1 + n = n + 1 by simp [Nat.add_comm],
      seqRun_move n hq (hs s (by simp [State.inTransaction, hb])) (advance_of_micro hm)]
    simp [misoRest]
  | cons m todo ih =>
    let f : Frame := ⟨kind, m :: todo, sent, got, hold⟩
    have hm : seqMicro s = some (s.shiftByte f m todo) := by
      simp only [seqMicro, hb, busMicro, hr, if_true]
      cases hold <;> simp_all [f]
    rw [show (m :: todo).length + 1 + n = todo.length + 1 + n + 1 by simp; omega,
      seqRun_move _ hq (hs s (by simp [State.inTransaction, hb])) (advance_of_micro hm),
      ih (sent ++ [m]) (got ++ [s.misoByte f]) .accepted (s.shiftByte f m todo) (by simp [f]) (by simp) (by simpa using hr)
        (by simpa [State.quiescent] using hq),
      misoRest_cons s sent m todo f rfl rfl]
    simp [State.shiftByte, List.drop_tail, Nat.add_assoc, Nat.add_comm 1 todo.length]

/-- A transaction begun runs to its end in as many moves as it has bytes, and two. -/
theorem seqRun_frame (kind : FrameKind) (mosi : List Byte) (n : Nat) (s : State) (hr : s.busReady = true)
    (hq : s.quiescent = false) (hs : ∀ u : State, u.inTransaction = true → stop u = false) :
    seqRun stop (mosi.length + 2 + n) (s.beginFrame kind mosi) =
      seqRun stop n
        { s.transact mosi with
          xbuf := match kind with
            | .write => s.xbuf
            | .read count => captured count (misoOf s mosi) s.xbuf } := by
  rw [show mosi.length + 2 + n = mosi.length + 1 + (n + 1) by omega,
    seqRun_shift kind mosi [] [] .settled (n + 1) (s.beginFrame kind mosi) rfl (by simp) (by simpa using hr)
      (by simpa [State.quiescent] using hq) hs]
  rw [seqRun_move n (by simpa [State.quiescent] using hq) (hs _ rfl)
    (advance_of_micro (by simp only [seqMicro, busMicro, beginFrame_busReady, hr, if_true]; rfl))]
  have hm : misoAt s mosi = fun i => (s.sensor[i]?).getD (Config.sensorByte (s.draws + i) s.hist mosi i) := rfl
  simp [State.finishFrame, State.beginFrame, State.transact, misoRest, misoOf, hm, hr]
  all_goals cases kind <;> rfl

/-- SPI_WRITE in one go. -/
theorem seqRun_write (c d : Byte) (n : Nat) (s : State) (hr : s.busReady = true) (hq : s.quiescent = false)
    (hs : ∀ u : State, u.inTransaction = true → stop u = false) :
    seqRun stop (4 + n) (s.beginWrite c d) = seqRun stop n (s.writeAll c d) := by
  have h := seqRun_frame (stop := stop) .write (writeFrame c d) n s hr hq hs
  exact h

/-- SPI_READ in one go. -/
theorem seqRun_read (a : Byte) (count : Nat) (n : Nat) (s : State) (hr : s.busReady = true) (hq : s.quiescent = false)
    (hs : ∀ u : State, u.inTransaction = true → stop u = false) :
    seqRun stop (count + 3 + n) (s.beginRead a count) = seqRun stop n (s.readAll a count) := by
  have h := seqRun_frame (stop := stop) (.read count) (readFrame a count) n { s with xbuf := setHead a s.xbuf } hr hq hs
  rw [show (readFrame a count).length + 2 + n = count + 3 + n by simp [readFrame]] at h
  exact h

/-! ## Reaching a state in so many moves -/

/-- A run from `s` is, after `k` moves, a run from `t`. -/
def Reaches (stop : State → Bool) (k : Nat) (s t : State) : Prop :=
  ∀ n, seqRun stop (k + n) s = seqRun stop n t

theorem reaches_refl (s : State) : Reaches stop 0 s s := fun n => by rw [Nat.zero_add]

theorem reaches_trans {j k : Nat} {s t u : State} (h : Reaches stop j s t) (h' : Reaches stop k t u) :
    Reaches stop (j + k) s u := fun n => by rw [Nat.add_assoc, h, h']

/-- One move. -/
theorem reaches_move (hq : s.quiescent = false) (hs : stop s = false) (h : advance s = some t) :
    Reaches stop 1 s t := fun n => by rw [Nat.add_comm, seqRun_move n hq hs h]

theorem reaches_micro (hq : s.quiescent = false) (hs : stop s = false) (h : seqMicro s = some t) :
    Reaches stop 1 s t := reaches_move hq hs (advance_of_micro h)

theorem reaches_write (c d : Byte) (s : State) (hr : s.busReady = true) (hq : s.quiescent = false)
    (hs : ∀ u : State, u.inTransaction = true → stop u = false) :
    Reaches stop 4 (s.beginWrite c d) (s.writeAll c d) := fun n => seqRun_write c d n s hr hq hs

theorem reaches_read (a : Byte) (count : Nat) (s : State) (hr : s.busReady = true) (hq : s.quiescent = false)
    (hs : ∀ u : State, u.inTransaction = true → stop u = false) :
    Reaches stop (count + 3) (s.beginRead a count) (s.readAll a count) := fun n => seqRun_read a count n s hr hq hs

/-- A run with enough moves ends in the state it reaches, if it stops there. -/
theorem seqRun_of_reaches {k q : Nat} (h : Reaches stop k s t) (hk : k ≤ q)
    (ht : (t.quiescent || stop t) = true ∨ advance t = none) : seqRun stop q s = t := by
  obtain ⟨n, rfl⟩ := Nat.exists_eq_add_of_le hk
  rw [h n]
  exact ht.elim (seqRun_stopped n) (seqRun_stuck n)

/-- A command's run ends in the state it reaches, if a fault is recorded there or nothing can move. -/
theorem runSeq_of_reaches {k : Nat} (h : Reaches (fun _ => false) k s t) (hk : k ≤ s.quantum)
    (ht : t.quiescent = true ∨ advance t = none) : s.runSeq = t :=
  seqRun_of_reaches h hk (ht.imp_left fun hq => by simp [hq])

/-- A transaction's run ends when no transaction is in progress. -/
theorem runBus_of_reaches {k : Nat} (h : Reaches (fun u => !u.inTransaction) k s t) (hk : k ≤ s.quantum)
    (ht : t.inTransaction = false) : s.runBus = t :=
  seqRun_of_reaches h hk (.inl (by simp [ht]))

/-- SAMPLE's run ends when its burst is latched. -/
theorem runSample_of_reaches {k : Nat} (h : Reaches sampleDone k s t) (hk : k ≤ s.quantum)
    (ht : sampleDone t = true) : s.runSample = t :=
  seqRun_of_reaches h hk (.inl (by simp [ht]))

/-- An idle block has nothing to do. -/
theorem advance_idle (hp : s.phase = .idle) (hb : s.bus = .idle) : advance s = none := by
  simp [advance, seqMicro, hb, phaseStep, hp, State.waiting]

end Sys2Proof.Machine
end

