-- ==== Sys2Proof/Laws/Ops.lean ====
section
/-!
SUPPORT. For each shared operation, everything it can answer: the live check, the end of an internal operation, the start of a
transaction, command entry (R150), the agents' moves and the step.
-/

namespace Sys2Proof.Machine

variable {s t : State}

theorem quiescent_of {s : State} (h : s.faults = 0) : s.quiescent = false := by simp [State.quiescent, h]

theorem quiescent_iff {s : State} : s.quiescent = false ↔ s.faults = 0 := by simp [State.quiescent]

/-- A live block answers. -/
theorem whenLive_of {a : Answer} (h : s.faults = 0) : whenLive a s = a := by
  simp [whenLive, quiescent_of h]

/-- A quiescent block does not. -/
theorem whenLive_quiescent {a : Answer} (h : s.faults ≠ 0) : whenLive a s = .fault .quiescent := by
  have hq : s.quiescent = true := by simpa [State.quiescent] using h
  simp [whenLive, hq]

theorem whenLive_next {a : Answer} (h : whenLive a s = .next t) : s.faults = 0 ∧ a = .next t := by
  unfold whenLive at h
  split at h
  · cases h
  · rename_i hq
    exact ⟨by simpa [State.quiescent] using hq, h⟩

theorem finishOp_ok {v : OpResult} (h : s.faults = 0) : finishOp (.ok v) s = .next { s with opResult := some v } :=
  whenLive_of h

theorem finishOp_error {f : FaultBit} (h : s.faults = 0) : finishOp (.error f) s = .next (s.raise f) := whenLive_of h

/-- Where an internal operation ends: its result, or its fault. -/
theorem finishOp_next {r : Except FaultBit OpResult} (h : finishOp r s = .next t) :
    s.faults = 0 ∧ ((∃ v, r = .ok v ∧ t = { s with opResult := some v }) ∨ ∃ f, r = .error f ∧ t = s.raise f) := by
  obtain ⟨hf, h⟩ := whenLive_next h
  refine ⟨hf, ?_⟩
  cases r with
  | ok v => exact .inl ⟨v, rfl, by simpa using h.symm⟩
  | error f => exact .inr ⟨f, rfl, by simpa using h.symm⟩

theorem startTransaction_next {b : State → State} (h : startTransaction b s = .next t) :
    s.faults = 0 ∧ s.inTransaction = false ∧ t = (b s).runBus := by
  obtain ⟨hf, h⟩ := whenLive_next h
  split at h
  · cases h
  · rename_i hn
    exact ⟨hf, by simpa using hn, by simpa using h.symm⟩

theorem startTransaction_of {b : State → State} (hf : s.faults = 0) (hn : s.inTransaction = false) :
    startTransaction b s = .next (b s).runBus := by
  simp [startTransaction, whenLive_of hf, hn]

/-- Command entry admits a command where R150's checks pass. -/
theorem issue_admits {code : Byte} {isInit : Bool} {start : State → State} (hf : s.faults = 0) (hb : s.busy = false)
    (hs : s.state = if isInit then .uninit else .ready) (ht : s.inTransaction = false) :
    issue code isInit start s = .next (start (s.admitted code)).runSeq := by
  cases isInit <;> simp_all [issue, whenLive_of hf]

/-- Everything command entry can answer with a next state, R150 and R244. -/
theorem issue_next {code : Byte} {isInit : Bool} {start : State → State} (h : issue code isInit start s = .next t) :
    s.faults = 0 ∧
      ((s.busy = true ∧ t = s.raise .reentrant) ∨
        (s.busy = false ∧ isInit = true ∧ s.state ≠ .uninit ∧ t = s.raise .reinit) ∨
        (s.busy = false ∧ isInit = false ∧ s.state ≠ .ready ∧ t = s.raise .notReady) ∨
        (s.busy = false ∧ s.state = (if isInit then .uninit else .ready) ∧ s.inTransaction = false ∧
          t = (start (s.admitted code)).runSeq)) := by
  obtain ⟨hf, h⟩ := whenLive_next h
  refine ⟨hf, ?_⟩
  cases isInit <;> split at h <;> simp_all
  all_goals split at h
  all_goals try split at h
  all_goals simp_all

theorem nextMove_of_cons {sched : Nat → Turn} {m : Move} {rest : List Move} (ha : s.agenda = m :: rest) :
    s.nextMove sched = m := by simp [State.nextMove, ha]

theorem nextMove_of_nil {sched : Nat → Turn} (ha : s.agenda = []) : s.nextMove sched = turnMove (sched s.turns) := by
  simp [State.nextMove, ha]

theorem moveTaken_of_cons {m : Move} {rest : List Move} (ha : s.agenda = m :: rest) :
    s.moveTaken = { s with agenda := rest } := by simp [State.moveTaken, ha]

theorem moveTaken_of_nil (ha : s.agenda = []) : s.moveTaken = { s with turns := s.turns + 1 } := by
  cases s; simp_all [State.moveTaken]

/-- A step takes the next move. -/
theorem stepUnder_of_wf {sched : Nat → Turn} (hc : s.cfg.wf = true) :
    stepUnder sched s = takeMove exec State.runSeq (s.nextMove sched) s.moveTaken := by
  simp [stepUnder, stepWith, hc]

/-- A step with a move on the agenda takes that move. -/
theorem step_of_cons {m : Move} {rest : List Move} (hc : s.cfg.wf = true) (ha : s.agenda = m :: rest) :
    step s = takeMove exec State.runSeq m { s with agenda := rest } := by
  rw [step, stepUnder_of_wf hc, nextMove_of_cons ha, moveTaken_of_cons ha]

/-- Everything a step can answer with a next state. -/
theorem stepUnder_next {sched : Nat → Turn} (h : stepUnder sched s = .next t) :
    s.cfg.wf = true ∧ takeMove exec State.runSeq (s.nextMove sched) s.moveTaken = .next t := by
  unfold stepUnder stepWith at h
  split at h
  · rename_i hc
    exact ⟨hc, h⟩
  · cases h

/-- Everything a move can do. -/
theorem takeMove_next {run : Instr → State → Answer} {goOn : State → State} {m : Move}
    (h : takeMove run goOn m s = .next t) :
    (m = .seq ∧ s.faults = 0 ∧ t = goOn s) ∨ (m = .tick ∧ t = s.tick) ∨ (∃ b, m = .bus b ∧ t = { s with busReady := b }) ∨
    (∃ n, m = .quantum n ∧ t = { s with quantum := n }) ∨ (m = .reset ∧ s.faults = 0 ∧ t = s.takeReset) ∨
    (∃ c e, m = .host c ∧ s.faults = 0 ∧ decodeHost c = .error e ∧ t = s.raise .illegalCmd) ∨
    (∃ i, (∃ c, m = .host c ∧ decodeHost c = .ok i) ∧ s.faults = 0 ∧ run i s = .next t) ∨
    (∃ i, (∃ b, m = .spi b ∧ decodeFrame b = .ok i) ∧ s.faults = 0 ∧ s.busy = false ∧ run i s = .next t) := by
  cases m with
  | seq =>
    obtain ⟨hf, h⟩ := whenLive_next h
    exact .inl ⟨rfl, hf, by simpa using h.symm⟩
  | tick => exact .inr (.inl ⟨rfl, by simpa [takeMove] using h.symm⟩)
  | bus b => exact .inr (.inr (.inl ⟨b, rfl, by simpa [takeMove] using h.symm⟩))
  | quantum n => exact .inr (.inr (.inr (.inl ⟨n, rfl, by simpa [takeMove] using h.symm⟩)))
  | reset =>
    obtain ⟨hf, h⟩ := whenLive_next h
    exact .inr (.inr (.inr (.inr (.inl ⟨rfl, hf, by simpa using h.symm⟩))))
  | host c =>
    obtain ⟨hf, h⟩ := whenLive_next h
    split at h
    · rename_i i hd
      exact .inr (.inr (.inr (.inr (.inr (.inr (.inl ⟨i, ⟨c, rfl, hd⟩, hf, h⟩))))))
    · rename_i e hd
      exact .inr (.inr (.inr (.inr (.inr (.inl ⟨c, e, rfl, hf, hd, by simpa using h.symm⟩)))))
  | spi b =>
    obtain ⟨hf, h⟩ := whenLive_next h
    split at h
    · rename_i i hd
      split at h
      · cases h
      · rename_i hb
        exact .inr (.inr (.inr (.inr (.inr (.inr (.inr ⟨i, ⟨b, rfl, hd⟩, hf, by simpa using hb, h⟩))))))
    · cases h

/-- A host code decodes to a host command. -/
theorem decodeHost_ok {c : Byte} {i : Instr} (h : decodeHost c = .ok i) :
    i = .init ∨ i = .readTInt ∨ i = .readPInt ∨ i = .readTFlt ∨ i = .readPFlt := by
  unfold decodeHost at h
  repeat' split at h
  all_goals simp_all

/-- A frame decodes to a transport operation. -/
theorem decodeFrame_ok {b : List Byte} {i : Instr} (h : decodeFrame b = .ok i) :
    (∃ a n, i = .spiRead a n) ∨ ∃ c d, i = .spiWrite c d := by
  unfold decodeFrame at h
  repeat' split at h
  all_goals cases h
  · exact .inl ⟨_, _, rfl⟩
  · exact .inr ⟨_, _, rfl⟩

end Sys2Proof.Machine
end

