-- ==== Sys2Proof/Laws/Moves.lean ====
section
/-!
SUPPORT. What one move of a run can change, field by field: the phase and the command under which a register is written
(spec/10_state.md, R20 to R39).
-/

namespace Sys2Proof.Machine

/-- The frame of one move from `s` to `t`. -/
structure MoveFrame (s t : State) : Prop where
  cfg : t.cfg = s.cfg
  cmd : t.cmd = s.cmd
  quantum : t.quantum = s.quantum
  turns : t.turns = s.turns
  opResult : t.opResult = s.opResult
  state : t.state = s.state ∨ (s.phase = .idRead ∧ t.state = .unsupported) ∨
    ((s.phase = .parse ∨ s.phase = .burst) ∧ t.state = .ready)
  kind : t.kind = s.kind ∨ s.phase = .idRead
  busy : t.busy = s.busy ∨ (s.phase = .done ∧ t.busy = false)
  cal : t.cal = s.cal ∨ s.phase = .parse
  raw : t.raw = s.raw ∨ s.phase = .burst
  settleTarget : t.settleTarget = s.settleTarget ∨ s.phase = .poll
  int : (t.tfineI = s.tfineI ∧ t.resTInt = s.resTInt) ∨ (s.phase = .compute ∧ s.cmd = 0x10)
  flt : (t.tfineF = s.tfineF ∧ t.resTFlt = s.resTFlt) ∨ (s.phase = .compute ∧ s.cmd = 0x20)
  resPInt : t.resPInt = s.resPInt ∨ (s.phase = .compute ∧ s.cmd = 0x11)
  resPFlt : t.resPFlt = s.resPFlt ∨ (s.phase = .compute ∧ s.cmd = 0x21)
  pairing : (t.pairedI = s.pairedI ∧ t.pairedF = s.pairedF) ∨
    (s.phase = .compute ∧ s.cmd = 0x10 ∧ t.pairedI = true ∧ t.pairedF = false) ∨
    (s.phase = .compute ∧ s.cmd = 0x20 ∧ t.pairedF = true ∧ t.pairedI = false)
  hist : s.hist <+: t.hist
  results : t.results = s.results ∨ (s.phase = .done ∧ t.results = s.results ++ [commandResult s])
  faults : t.faults = s.faults ∨ (s.phase = .compute ∧ ∃ f, t.faults = s.faults ||| faultMask f)

variable {s t : State}

theorem moveFrame_busMicro {f : Frame} (h : busMicro f s = some t) : MoveFrame s t := by
  rcases (busMicro_cases h).2 with ⟨-, rfl⟩ | ⟨-, -, rfl⟩ | ⟨_, _, -, -, rfl⟩ <;> constructor <;> simp

/-- READ_T_INT's COMPUTE ends in a result or a fault (R170). -/
theorem computeTInt_cases (s : State) :
    (∃ tf v, computeTInt s = { s with tfineI := tf, resTInt := v, phase := .done }.pairInt) ∨
      ∃ f, computeTInt s = s.raise f := by
  unfold computeTInt
  generalize compTInt _ _ _ _ _ = r
  cases r with
  | ok v => exact .inl ⟨v.1, v.2, rfl⟩
  | error f => exact .inr ⟨f, rfl⟩

/-- READ_T_FLT's COMPUTE (R171). -/
theorem computeTFlt_cases (s : State) :
    (∃ tf v, computeTFlt s = { s with tfineF := tf, resTFlt := v, phase := .done }.pairFlt) ∨
      ∃ f, computeTFlt s = s.raise f := by
  unfold computeTFlt
  generalize compTFlt _ _ _ _ _ = r
  cases r with
  | ok v => exact .inl ⟨v.1, v.2, rfl⟩
  | error f => exact .inr ⟨f, rfl⟩

/-- READ_P_INT's COMPUTE (R172). -/
theorem computePInt_cases (s : State) :
    (∃ p, computePInt s = { s with resPInt := p, phase := .done }) ∨ ∃ f, computePInt s = s.raise f := by
  unfold computePInt
  generalize compPInt _ _ _ _ _ = r
  split
  · cases r with
    | ok p => exact .inl ⟨p, rfl⟩
    | error f => exact .inr ⟨f, rfl⟩
  · exact .inr ⟨_, rfl⟩

/-- READ_P_FLT's COMPUTE (R173). -/
theorem computePFlt_cases (s : State) :
    (∃ p, computePFlt s = { s with resPFlt := p, phase := .done }) ∨ ∃ f, computePFlt s = s.raise f := by
  unfold computePFlt
  generalize compPFlt _ _ _ = r
  split
  · exact .inl ⟨r, rfl⟩
  · exact .inr ⟨_, rfl⟩

theorem moveFrame_raise (hp : s.phase = .compute) (f : FaultBit) : MoveFrame s (s.raise f) := by
  constructor <;> simp [hp]
  exact .inr ⟨f, rfl⟩

theorem moveFrame_computeStep (hp : s.phase = .compute) (h : computeStep s = some t) : MoveFrame s t := by
  unfold computeStep at h
  split at h
  · rename_i hc
    obtain rfl := Option.some.inj h
    rcases computeTInt_cases s with ⟨tf, v, h⟩ | ⟨f, h⟩ <;> rw [h]
    · constructor <;> simp [hp, hc]
    · exact moveFrame_raise hp f
  split at h
  · rename_i hc
    obtain rfl := Option.some.inj h
    rcases computeTFlt_cases s with ⟨tf, v, h⟩ | ⟨f, h⟩ <;> rw [h]
    · constructor <;> simp [hp, hc]
    · exact moveFrame_raise hp f
  split at h
  · rename_i hc
    obtain rfl := Option.some.inj h
    rcases computePInt_cases s with ⟨p, h⟩ | ⟨f, h⟩ <;> rw [h]
    · constructor <;> simp [hp, hc]
    · exact moveFrame_raise hp f
  split at h
  · rename_i hc
    obtain rfl := Option.some.inj h
    rcases computePFlt_cases s with ⟨p, h⟩ | ⟨f, h⟩ <;> rw [h]
    · constructor <;> simp [hp, hc]
    · exact moveFrame_raise hp f
  · cases h

theorem moveFrame_phaseStep (h : phaseStep s = some t) : MoveFrame s t := by
  unfold phaseStep at h
  split at h
  case h_9 hp => exact moveFrame_computeStep hp h
  all_goals try split at h
  all_goals try split at h
  all_goals try cases h; done
  all_goals obtain rfl := Option.some.inj h
  all_goals constructor <;> simp_all [parseStep, exitStep]

theorem moveFrame_afterBus (h : afterBus s = some t) : MoveFrame s t := by
  unfold afterBus at h
  split at h
  case h_6 => exact moveFrame_phaseStep h
  all_goals simp only [Option.some.injEq] at h
  all_goals subst h
  · unfold idReadDone; split <;> constructor <;> simp_all
  · constructor <;> simp
  · constructor <;> simp
  · unfold pollDone; split <;> constructor <;> simp_all
  · constructor <;> simp_all [burstDone]

/-- A micro-step of SEQ leaves what is TICK's and the bus hardware's, and who moves next, alone (R75, R253). -/
structure EnvKept (s t : State) : Prop where
  ticks : t.ticks = s.ticks
  busReady : t.busReady = s.busReady
  agenda : t.agenda = s.agenda

theorem envKept_busMicro {f : Frame} (h : busMicro f s = some t) : EnvKept s t := by
  rcases (busMicro_cases h).2 with ⟨-, rfl⟩ | ⟨-, -, rfl⟩ | ⟨_, _, -, -, rfl⟩ <;> constructor <;> simp

theorem envKept_computeStep (h : computeStep s = some t) : EnvKept s t := by
  unfold computeStep at h
  split at h
  · obtain rfl := Option.some.inj h
    rcases computeTInt_cases s with ⟨tf, v, h⟩ | ⟨f, h⟩ <;> rw [h] <;> constructor <;> simp
  split at h
  · obtain rfl := Option.some.inj h
    rcases computeTFlt_cases s with ⟨tf, v, h⟩ | ⟨f, h⟩ <;> rw [h] <;> constructor <;> simp
  split at h
  · obtain rfl := Option.some.inj h
    rcases computePInt_cases s with ⟨p, h⟩ | ⟨f, h⟩ <;> rw [h] <;> constructor <;> simp
  split at h
  · obtain rfl := Option.some.inj h
    rcases computePFlt_cases s with ⟨p, h⟩ | ⟨f, h⟩ <;> rw [h] <;> constructor <;> simp
  · cases h

theorem envKept_phaseStep (h : phaseStep s = some t) : EnvKept s t := by
  unfold phaseStep at h
  split at h
  case h_9 => exact envKept_computeStep h
  all_goals try split at h
  all_goals try split at h
  all_goals try cases h; done
  all_goals obtain rfl := Option.some.inj h
  all_goals constructor <;> simp [parseStep, exitStep]

theorem envKept_seqMicro (h : seqMicro s = some t) : EnvKept s t := by
  unfold seqMicro at h
  split at h
  · exact envKept_busMicro h
  · exact envKept_phaseStep h
  unfold afterBus at h
  split at h
  case h_6 => exact envKept_phaseStep h
  all_goals obtain rfl := Option.some.inj h
  · unfold idReadDone; split <;> constructor <;> simp
  · constructor <;> simp
  · constructor <;> simp
  · unfold pollDone; split <;> constructor <;> simp
  · constructor <;> simp [burstDone]

/-- The frame of every move. -/
theorem moveFrame_advance (h : advance s = some t) : MoveFrame s t := by
  rcases advance_cases h with h | ⟨-, -, ⟨rest, ha, rfl⟩ | ⟨b, rest, ha, rfl⟩⟩
  · unfold seqMicro at h
    split at h
    · exact moveFrame_busMicro h
    · exact moveFrame_phaseStep h
    · exact moveFrame_afterBus h
  · constructor <;> simp
  · constructor <;> simp

end Sys2Proof.Machine
end

