-- ==== Sys2Proof/Laws/PerInstr.lean ====
section
/-!
SUPPORT. The family OnWire: an instruction and what the wire carries of it (R133, R136) are encoded by the same words, are well
formed together, and what the wire carries is carried whole.
-/

namespace Sys2Proof.Laws.OnWire

open Sys2Proof

def Statement (i : Instr) : Prop :=
  encode i.onWire = encode i ∧ i.onWire.wf = i.wf ∧ i.onWire.onWire = i.onWire

theorem writeHeader_writeHeader (c : Byte) : writeHeader (writeHeader c) = writeHeader c := by
  simp [writeHeader, BitVec.and_assoc]

theorem spiWrite (c d : Byte) : Statement (.spiWrite c d) := by
  refine ⟨?_, rfl, ?_⟩ <;> simp [Instr.onWire, encode, writeFrame, writeHeader_writeHeader]

theorem spiRead (a : Byte) (n : Nat) : Statement (.spiRead a n) := ⟨rfl, rfl, rfl⟩
theorem init : Statement .init := ⟨rfl, rfl, rfl⟩
theorem readTInt : Statement .readTInt := ⟨rfl, rfl, rfl⟩
theorem readPInt : Statement .readPInt := ⟨rfl, rfl, rfl⟩
theorem readTFlt : Statement .readTFlt := ⟨rfl, rfl, rfl⟩
theorem readPFlt : Statement .readPFlt := ⟨rfl, rfl, rfl⟩
theorem calParse (b : List Byte) : Statement (.calParse b) := ⟨rfl, rfl, rfl⟩
theorem sample : Statement .sample := ⟨rfl, rfl, rfl⟩
theorem rawUnpack (r : List Byte) : Statement (.rawUnpack r) := ⟨rfl, rfl, rfl⟩
theorem compTInt (a : S32) (t1 : U16) (t2 t3 : S16) : Statement (.compTInt a t1 t2 t3) := ⟨rfl, rfl, rfl⟩
theorem compPInt32 (a t : S32) (p : PressureCoeffs) : Statement (.compPInt32 a t p) := ⟨rfl, rfl, rfl⟩
theorem compPInt64 (a t : S32) (p : PressureCoeffs) : Statement (.compPInt64 a t p) := ⟨rfl, rfl, rfl⟩
theorem compTFlt (a : S32) (t1 : U16) (t2 t3 : S16) : Statement (.compTFlt a t1 t2 t3) := ⟨rfl, rfl, rfl⟩
theorem compPFlt (a : S32) (t : F64) (p : PressureCoeffs) : Statement (.compPFlt a t p) := ⟨rfl, rfl, rfl⟩

end Sys2Proof.Laws.OnWire
end

