-- ==== Sys2Proof/Laws/Runs.lean ====
section
/-!
SUPPORT. The laws of a run of many steps (`runUnder`): composition, a turn of SEQ, and TICK steps in a row (R253).
-/

namespace Sys2Proof.Machine

variable {sched : Nat → Turn} {s t : State}

@[simp] theorem runUnder_zero : runUnder sched 0 s = some s := rfl

/-- One step and the rest. -/
theorem runUnder_succ (n : Nat) (h : stepUnder sched s = .next t) : runUnder sched (n + 1) s = runUnder sched n t := by
  simp only [runUnder, h]

/-- A run is the run of its parts. -/
theorem runUnder_add (m n : Nat) (h : runUnder sched m s = some t) : runUnder sched (m + n) s = runUnder sched n t := by
  induction m generalizing s with
  | zero => simp_all
  | succ m ih =>
    rw [Nat.succ_add]
    cases hs : stepUnder sched s with
    | next u =>
      rw [runUnder_succ _ hs] at h ⊢
      exact ih h
    | fault f => simp [runUnder, hs] at h
    | refused r => simp [runUnder, hs] at h

/-- A turn of SEQ. -/
theorem stepUnder_seq (hc : s.cfg.wf = true) (hf : s.faults = 0) (hn : s.nextMove sched = .seq) :
    stepUnder sched s = .next s.moveTaken.runSeq := by
  rw [stepUnder_of_wf hc, hn]
  exact whenLive_of hf

/-- A turn of SEQ that is one micro-step (R15). -/
theorem stepUnder_micro (hc : s.cfg.wf = true) (hf : s.faults = 0) (hn : s.nextMove sched = .seq) (hq : s.quantum = 1)
    (h : seqMicro s.moveTaken = some t) : stepUnder sched s = .next t := by
  rw [stepUnder_seq hc hf hn]
  congr 1
  have hm : seqRun (fun _ => false) (0 + 1) s.moveTaken = t := by
    rw [seqRun_move 0 (quiescent_of (by simpa using hf)) rfl (advance_of_micro h), seqRun_zero]
  rw [State.runSeq, moveTaken_quantum, hq]
  exact hm

/-- A turn of SEQ that has nothing to do, or waits with no move of another agent on the agenda. -/
theorem stepUnder_stuck (hc : s.cfg.wf = true) (hf : s.faults = 0) (hn : s.nextMove sched = .seq)
    (h : advance s.moveTaken = none) : stepUnder sched s = .next s.moveTaken := by
  rw [stepUnder_seq hc hf hn, State.runSeq, seqRun_stuck _ h]

/-- A TICK step, R253. -/
theorem stepUnder_tick (hc : s.cfg.wf = true) (hn : s.nextMove sched = .tick) :
    stepUnder sched s = .next s.moveTaken.tick := by
  rw [stepUnder_of_wf hc, hn]
  rfl

/-- A move of the bus hardware, R135. -/
theorem stepUnder_bus {b : Bool} (hc : s.cfg.wf = true) (hn : s.nextMove sched = .bus b) :
    stepUnder sched s = .next { s.moveTaken with busReady := b } := by
  rw [stepUnder_of_wf hc, hn]
  rfl

/-- `k` TICK steps in a row add `k` to the count and change nothing else, R253. -/
theorem runUnder_ticks (k : Nat) (rest : List Move) (hc : s.cfg.wf = true) (ha : s.agenda = List.replicate k .tick ++ rest) :
    runUnder sched k s = some { s with ticks := s.ticks + k, agenda := rest } := by
  induction k generalizing s with
  | zero =>
    obtain rfl : s.agenda = rest := by simpa using ha
    rfl
  | succ k ih =>
    have ha' : s.agenda = .tick :: (List.replicate k .tick ++ rest) := by simpa [List.replicate_succ] using ha
    have hs := stepUnder_tick (sched := sched) hc (nextMove_of_cons ha')
    rw [moveTaken_of_cons ha'] at hs
    rw [runUnder_succ k hs, ih (by simpa using hc) rfl]
    simp [State.tick, Nat.add_assoc, Nat.add_comm 1 k]

end Sys2Proof.Machine
end

