-- ==== Sys2Proof/Laws/Sample.lean ====
section
/-!
SUPPORT. SAMPLE in one go (R160 to R164): how many moves SEQ takes from TRIGGER to the latched burst, and where it is then.
-/

namespace Sys2Proof.Machine

variable {stop : State → Bool}

/-- A run that does not stop while SEQ measures. -/
def MeasuresOn (stop : State → Bool) : Prop :=
  ∀ u : State, u.state = .measuring ∨ u.inTransaction = true → stop u = false

/-- One status read from POLL. -/
theorem reaches_pollRead (s : State) (hr : s.busReady = true) (hf : s.faults = 0) (hm : s.state = .measuring)
    (hs : MeasuresOn stop) (hp : s.phase = .poll) (hb : s.bus = .idle) :
    Reaches stop 6 s (pollDone s.pollOnce) := by
  have h1 : Reaches stop 1 s (s.beginRead s.cfg.regStatus 1) :=
    reaches_micro (quiescent_of hf) (hs _ (.inl hm)) (by simp [seqMicro, hb, phaseStep, hp])
  have h2 := reaches_read (stop := stop) s.cfg.regStatus 1 s hr (quiescent_of hf) fun u hu => hs u (.inr hu)
  have h3 : Reaches stop 1 (s.readAll s.cfg.regStatus 1) (pollDone s.pollOnce) :=
    reaches_micro (quiescent_of (by simpa using hf)) (hs _ (.inl (by simpa using hm)))
      (by simp [seqMicro, afterBus, hp, State.pollOnce])
  exact reaches_trans (reaches_trans h1 h2) h3

/-- POLL with `n` busy answers, R162. -/
theorem reaches_poll (n : Nat) (s : State) (hr : s.busReady = true) (hf : s.faults = 0) (hm : s.state = .measuring)
    (hs : MeasuresOn stop) (he : s.pollEnds n = true) (hp : s.phase = .poll) (hb : s.bus = .idle) :
    Reaches stop (6 * n + 6) s
      { s.pollAll n with phase := .settle, settleTarget := s.ticks + s.cfg.settleTicks, bus := .idle } := by
  induction n generalizing s with
  | zero =>
    have h := reaches_pollRead s hr hf hm hs hp hb
    have hd : measurementDone s.cfg.statusMeasuringMask (s.pollOnce.xbufAt 0) = true := he
    have hc : s.pollOnce.cfg = s.cfg := rfl
    rw [pollDone, hc, if_pos hd] at h
    exact h
  | succ n ih =>
    obtain ⟨hn, he⟩ : s.pollClear = false ∧ s.pollOnce.pollEnds n = true := by simpa [State.pollEnds] using he
    have h := reaches_pollRead s hr hf hm hs hp hb
    have hd : measurementDone s.cfg.statusMeasuringMask (s.pollOnce.xbufAt 0) = false := hn
    have hc : s.pollOnce.cfg = s.cfg := rfl
    rw [pollDone, hc, hd, if_neg (by simp)] at h
    have hpe : { s.pollOnce with bus := .idle }.pollEnds n = true := by cases n <;> exact he
    have hpa : { s.pollOnce with bus := BusState.idle }.pollAll n = s.pollOnce.pollAll n := by cases n <;> rfl
    have h' := reaches_trans h (ih { s.pollOnce with bus := .idle } hr hf hm hpe hp rfl)
    rw [hpa, show 6 + (6 * n + 6) = 6 * (n + 1) + 6 by omega] at h'
    exact h'

/-- POLL changes nothing but XBUF, CS, HIST and what SENSOR has given. -/
theorem pollAll_frame (n : Nat) (s : State) :
    s.pollAll n =
      { s with
        xbuf := (s.pollAll n).xbuf, cs := (s.pollAll n).cs, hist := (s.pollAll n).hist, bus := (s.pollAll n).bus,
        sensor := (s.pollAll n).sensor, draws := (s.pollAll n).draws } := by
  induction n generalizing s with
  | zero => rfl
  | succ n ih =>
    simp only [State.pollAll]
    rw [ih s.pollOnce]
    rfl

/-- SETTLE's hold is lifted by TICK's steps, R163. -/
theorem reaches_settle (k : Nat) (s : State) (hf : s.faults = 0) (hm : s.state = .measuring) (hs : MeasuresOn stop)
    (hp : s.phase = .settle) (hb : s.bus = .idle) (ht : s.ticks + k = s.settleTarget)
    (ha : s.agenda.take k = List.replicate k .tick) :
    Reaches stop k s { s with ticks := s.ticks + k, agenda := s.agenda.drop k } := by
  induction k generalizing s with
  | zero => exact reaches_refl s
  | succ k ih =>
    cases hg : s.agenda with
    | nil => simp [hg, List.replicate_succ] at ha
    | cons m rest =>
      obtain ⟨rfl, ha⟩ : m = .tick ∧ rest.take k = List.replicate k .tick := by
        simpa [hg, List.replicate_succ] using ha
      have hlt : ¬ s.settleTarget ≤ s.ticks := by omega
      have h1 : Reaches stop 1 s { s with ticks := s.ticks + 1, agenda := rest } :=
        reaches_move (quiescent_of hf) (hs _ (.inl hm))
          (by simp [advance, seqMicro, hb, phaseStep, hp, hlt, State.waiting, envMove, hg, State.tick])
      have h2 := reaches_trans h1
        (ih { s with ticks := s.ticks + 1, agenda := rest } hf hm hp hb (by simp; omega) ha)
      rw [Nat.add_comm k 1]
      simpa [Nat.add_assoc, Nat.add_comm 1 k] using h2

/-- SAMPLE with `n` busy status reads, R160 to R164. -/
theorem reaches_sample (n : Nat) (s : State) (hr : s.busReady = true) (hf : s.faults = 0) (hs : MeasuresOn stop)
    (he : s.triggerAll.pollEnds n = true) (ha : TicksComing s) :
    Reaches stop (24 + 6 * n + s.cfg.settleTicks) s.startSample (s.sampleAll n) := by
  let w : State := { s.triggerAll with bus := .idle }
  let p : State := s.triggerAll.pollAll n
  have h1 : Reaches stop 1 s.startSample (s.startSample.beginWrite s.cfg.regCtrlMeas s.cfg.ctrlMeasValue) :=
    reaches_micro (quiescent_of hf) (hs _ (.inl rfl)) (by simp [seqMicro, phaseStep])
  have h2 := reaches_write (stop := stop) s.cfg.regCtrlMeas s.cfg.ctrlMeasValue s.startSample hr (quiescent_of hf)
    fun u hu => hs u (.inr hu)
  have h3 : Reaches stop 1 (s.startSample.writeAll s.cfg.regCtrlMeas s.cfg.ctrlMeasValue) w :=
    reaches_micro (quiescent_of hf) (hs _ (.inl rfl)) (by simp [seqMicro, afterBus]; rfl)
  have hpe : w.pollEnds n = true := by cases n <;> exact he
  have hpa : w.pollAll n = p := by cases n <;> rfl
  have h4 := reaches_poll n w hr hf rfl hs hpe rfl rfl
  rw [hpa] at h4
  have hp := pollAll_frame n s.triggerAll
  have hcfg : p.cfg = s.cfg := (congrArg State.cfg hp).trans rfl
  have hfa : p.faults = 0 := (congrArg State.faults hp).trans hf
  have hst : p.state = .measuring := (congrArg State.state hp).trans rfl
  have hti : p.ticks = s.ticks := (congrArg State.ticks hp).trans rfl
  have hag : p.agenda = s.agenda := (congrArg State.agenda hp).trans rfl
  have hbr : p.busReady = true := (congrArg State.busReady hp).trans hr
  let q : State := { p with phase := .settle, settleTarget := s.ticks + s.cfg.settleTicks, bus := .idle }
  have h5 := reaches_settle (stop := stop) s.cfg.settleTicks q hfa hst hs rfl rfl (by simp [q, hti])
    (by simpa [q, hag, TicksComing] using ha)
  let r : State := { q with ticks := q.ticks + s.cfg.settleTicks, agenda := q.agenda.drop s.cfg.settleTicks }
  have h6 : Reaches stop 1 r { r with phase := .burst } :=
    reaches_micro (quiescent_of hfa) (hs _ (.inl hst)) (by simp [seqMicro, phaseStep, r, q, hti]; rfl)
  have h7 : Reaches stop 1 { r with phase := .burst } ({ r with phase := .burst }.beginRead s.cfg.regData 6) :=
    reaches_micro (quiescent_of hfa) (hs _ (.inl hst)) (by simp [seqMicro, phaseStep, r, q, hst, hcfg])
  have h8 := reaches_read (stop := stop) s.cfg.regData 6 { r with phase := .burst } hbr (quiescent_of hfa)
    fun u hu => hs u (.inr hu)
  have h9 : Reaches stop 1 ({ r with phase := .burst }.readAll s.cfg.regData 6)
      (burstDone ({ r with phase := .burst }.readAll s.cfg.regData 6)) :=
    reaches_micro (quiescent_of hfa) (hs _ (.inl hst)) (by simp [seqMicro, afterBus])
  have hend : burstDone ({ r with phase := .burst }.readAll s.cfg.regData 6) = s.sampleAll n := by
    have hh : ({ r with phase := .burst, bus := p.bus } : State) = s.sampleHead n := by
      simp only [State.sampleHead, State.settleAll, State.atPhase, r, q]
      simp only [show s.triggerAll.pollAll n = p from rfl, hti, hcfg]
    simp only [State.sampleAll, ← hh]
    rfl
  have h := reaches_trans (reaches_trans (reaches_trans (reaches_trans (reaches_trans (reaches_trans
    (reaches_trans (reaches_trans h1 h2) h3) h4) h5) h6) h7) h8) h9
  rw [hend, show 1 + 4 + 1 + (6 * n + 6) + s.cfg.settleTicks + 1 + 1 + (6 + 3) + 1
    = 24 + 6 * n + s.cfg.settleTicks by omega] at h
  exact h

end Sys2Proof.Machine
end

