-- ==== Sys2Proof/Tests/Slice0.lean ====
section
/-!
SUPPORT. Tests, each with the vector or rule of the spec its expected value comes from, and for every statement with
hypotheses the named witness that they can be met together.
-/

namespace Sys2Proof.Tests

open Sys2Proof Sys2Proof.Machine

set_option Elab.async false

/-! ## The states the tests start from -/

/-- The defaults of R8, with a control byte that selects forced mode (R105) and a settle time of two ticks. -/
def cfg1 : Params := { Params.default with ctrlMeasValue := 0x25, settleTicks := 2 }

/-- The start of a run at tick 100. -/
def base : State := { State.initial cfg1 with ticks := 100 }

/-- CAL-1's 24 bytes. -/
def cal1 : List Byte :=
  [0x70, 0x6B, 0x43, 0x67, 0x18, 0xFC, 0x7D, 0x8E, 0x43, 0xD6, 0xD0, 0x0B,
    0x27, 0x0B, 0x8C, 0x00, 0xF9, 0xFF, 0x8C, 0x3C, 0xF8, 0xC6, 0x70, 0x17]

/-- CAL-1's pressure coefficients. -/
def p1 : PressureCoeffs := (parseCal cal1).pressure

/-- A READY block with CAL-1. -/
def ready : State := { base with state := .ready, kind := .variantA, cal := parseCal cal1 }

/-- PRG-1's second half: one busy status answer, then the data bytes; two ticks come. -/
def sampling : State :=
  { ready with
    sensor := [0, 0, 0, 8, 0, 0, 0, 0x65, 0x5A, 0xC0, 0x7E, 0xED, 0x00]
    agenda := [.tick, .tick] }

/-- A READY block whose integer and float temperatures have been read (PRG-1); the flags are set per test. -/
def paired : State :=
  { ready with raw := ⟨0x65, 0x5A, 0xC0, 0x7E, 0xED, 0x00⟩, tfineI := 128422, tfineF := .s32 128422 }

/-- A READ_T_INT at SETTLE, its target tick 102, SEQ's turn next. -/
def settling : State :=
  { ready with state := .measuring, busy := true, cmd := 0x10, phase := .settle, settleTarget := 102, agenda := [.seq] }

/-- A READ_T_INT in POLL, one micro-step a turn; SEQ moves, `k` TICK steps come, SEQ moves, RESET comes. -/
def polling (k : Nat) : State :=
  { ready with
    state := .measuring, busy := true, cmd := 0x10, phase := .poll, quantum := 1
    agenda := .seq :: (List.replicate k .tick ++ [.seq, .reset]) }

/-- TICK and SEQ by turns, for ever. -/
def byTurns (n : Nat) : Turn := if n % 2 = 0 then .tick else .seq

/-- INIT's sensor: an identification answer, then a calibration block. -/
def before (id : Byte) : State := { base with sensor := [0xAA, id, 0xBB] ++ cal1 }

/-- The next state, or the start of a run where there is none. -/
def after (a : Answer) : State :=
  match a with
  | .next s => s
  | _ => base

/-! ## Well-formedness: one ill-formed term for each check -/

theorem test_wf_read_address : (Instr.spiRead 0x50 1).wf = false := by decide
theorem test_wf_read_count : (Instr.spiRead 0xD0 0).wf = false := by decide
theorem test_wf_read_fits : (Instr.spiRead 0x88 25).fits 24 = false := by decide
theorem test_wf_cal_length : (Instr.calParse (cal1.drop 1)).wf = false := by decide
theorem test_wf_raw_length : (Instr.rawUnpack [1, 2, 3, 4, 5, 6, 7]).wf = false := by decide
theorem test_wf_adc :
    (Instr.compTInt 0x100000 0 0 0).wf = false ∧ (Instr.compPInt32 0x100000 0 p1).wf = false ∧
    (Instr.compPInt64 0xFFFFFFFF 0 p1).wf = false ∧ (Instr.compTFlt 0x100000 0 0 0).wf = false ∧
    (Instr.compPFlt 0x100000 0 p1).wf = false := by decide
theorem test_wf_accepts : (Instr.spiRead 0xD0 1).wf = true ∧ (Instr.compTInt 0xFFFFF 0 0 0).wf = true := by decide

/-- R9, clauses (a) to (d). -/
theorem test_cfg_refused :
    ({ cfg1 with regId := 0x50 } : Params).wf = false ∧ ({ cfg1 with regCalib := 0x08 } : Params).wf = false ∧
    ({ cfg1 with regStatus := 0x73 } : Params).wf = false ∧ ({ cfg1 with regData := 0x77 } : Params).wf = false ∧
    ({ cfg1 with regCalib := 0xE9 } : Params).wf = false ∧ ({ cfg1 with regData := 0xFB } : Params).wf = false ∧
    ({ cfg1 with statusMeasuringMask := 0 } : Params).wf = false ∧ ({ cfg1 with xbufLen := 23 } : Params).wf = false := by
  decide
theorem test_cfg_boundary :
    ({ cfg1 with regCalib := 0xE8, regData := 0xFA, xbufLen := 24 } : Params).wf = true := by decide

/-! ## Decoding: words written out from R91, R97, R98 -/

/-- HC-1 to HC-5. -/
theorem test_decode_codes :
    decodeHost 0b00000001 = .ok .init ∧ decodeHost 0b00010000 = .ok .readTInt ∧ decodeHost 0b00010001 = .ok .readPInt ∧
    decodeHost 0b00100000 = .ok .readTFlt ∧ decodeHost 0b00100001 = .ok .readPFlt := by decide
/-- HC-6. -/
theorem test_decode_illegal :
    ∀ c ∈ ([0x00, 0x02, 0x12, 0x22, 0x30, 0x81, 0xFF] : List Byte), decodeHost c = .error (.illegalCommand c) := by decide
/-- SP-2, SP-4, SP-7. -/
theorem test_decode_frames :
    decodeFrame [0b01110100, 0x25] = .ok (.spiWrite 0x74 0x25) ∧ decodeFrame [0b11010000, 0] = .ok (.spiRead 0xD0 1) ∧
    decodeFrame [0b11110111, 0, 0, 0, 0, 0, 0] = .ok (.spiRead 0xF7 6) := by decide
/-- R97 to R99. -/
theorem test_decode_bad_frames :
    decodeFrame [] = .error .emptyFrame ∧ decodeFrame [0xD0] = .error .readFrameLength ∧
    decodeFrame [0xD0, 1] = .error .readPadding ∧ decodeFrame [0x74] = .error .writeFrameLength ∧
    decodeFrame [0x74, 1, 2] = .error .writeFrameLength := by decide
/-- SP-1, SP-3: the wire's command byte has bit 7 clear. -/
theorem test_encode_write : encode (.spiWrite 0xF4 0xFF) = some (.frame [0x74, 0xFF]) := by decide
/-- The rows of the opcode table. -/
theorem test_table_words :
    decodeTableWord 8 0x00 = some (.spiWrite 0 0) ∧ decodeTableWord 16 0x2574 = some (.spiWrite 0x74 0x25) ∧
    decodeTableWord 8 0x80 = some (.spiRead 0x80 1) ∧ decodeTableWord 8 0x01 = some .init ∧
    decodeTableWord 8 0x10 = some .readTInt ∧ decodeTableWord 8 0x11 = some .readPInt ∧
    decodeTableWord 8 0x20 = some .readTFlt ∧ decodeTableWord 8 0x21 = some .readPFlt := by decide
/-- PRG-4's text: comments, and the two pseudo-instructions of R108. -/
theorem test_assemble :
    assemble ("INIT          ; 0x01\nREAD_INT      ; pseudo-instruction\n\nREAD_FLT".toList) =
      .ok [.init, .readTInt, .readPInt, .readTFlt, .readPFlt] := by decide
theorem test_assemble_refuses :
    (assemble ("NOP".toList) = .error (.unknownLine "NOP".toList)) ∧
    commandCodes [.init, .readTInt, .readPInt] = [0x01, 0x10, 0x11] := by decide

/-! ## The views and the fault codes -/

/-- R40, PRG-3's end state. -/
theorem test_sv :
    ({ ready with busy := true, pairedF := true } : State).sv = 0x56 ∧ ({ ready with pairedI := true } : State).sv = 0x26 := by
  decide
/-- R4. -/
theorem test_config_string : cfg1.configString = "BSIB-SPI-v7/INT32/FAULT/TRUNC_S32" := by decide
/-- R105: 0x25 selects forced mode and measures both channels; 0x24 sleeps. -/
theorem test_forced_mode :
    cfg1.selectsForcedMode = true ∧ ({ cfg1 with ctrlMeasValue := 0x24 } : Params).selectsForcedMode = false := by decide

/-! ## The transport -/

/-- SP-3: MOSI is `74 FF`; no register but HIST changes. -/
theorem test_spiWrite :
    (after (exec (.spiWrite 0xF4 0xFF) { base with sensor := [1, 2, 3] })).hist = [⟨[0x74, 0xFF], [1, 2]⟩] ∧
    (after (exec (.spiWrite 0xF4 0xFF) { base with sensor := [1, 2, 3] })).xbuf = base.xbuf := by decide +kernel
/-- SP-9: the first byte is discarded. -/
theorem test_spiRead_id :
    (after (exec (.spiRead 0xD0 1) { base with sensor := [0xAA, 0x58] })).xbufAt 0 = 0x58 := by decide +kernel
/-- SP-7: six bytes captured, the rest of XBUF unchanged. -/
theorem test_spiRead_burst :
    (after (exec (.spiRead 0xF7 6)
      { base with xbuf := cal1, sensor := [9, 0x65, 0x5A, 0xC0, 0x7E, 0xED, 0x00] })).xbuf =
      [0x65, 0x5A, 0xC0, 0x7E, 0xED, 0x00] ++ cal1.drop 6 := by decide +kernel
/-- R141: the bus hardware lifts no hold; CS stays asserted and nothing is recorded. -/
theorem test_spiRead_held :
    (after (exec (.spiRead 0xD0 1) { base with busReady := false })).cs = .asserted ∧
    (after (exec (.spiRead 0xD0 1) { base with busReady := false })).hist = [] := by decide +kernel

/-! ## The host commands -/

/-- S-1, SP-8: VARIANT_A, and CAL is CAL-1. -/
theorem test_init :
    (after (exec .init (before 0x58))).cal = parseCal cal1 ∧ (after (exec .init (before 0x58))).sv = 0x06 := by
  decide +kernel
/-- PRG-2: the unsupported path. -/
theorem test_init_unsupported :
    (after (exec .init (before 0x55))).sv = 0x01 ∧ (after (exec .init (before 0x55))).hist.length = 1 ∧
    (after (exec .init (before 0x55))).results = [⟨.eUnsupported, none⟩] := by decide +kernel
/-- PRG-1, READ_T_INT. -/
theorem test_readTInt :
    (after (exec .readTInt sampling)).results = [⟨.ok, some (.s32 2508)⟩] ∧
    (after (exec .readTInt sampling)).hist.length = 4 ∧ (after (exec .readTInt sampling)).sv = 0x26 := by decide +kernel
/-- EX-2. -/
theorem test_readTInt_notReady : (after (exec .readTInt base)).faults = 0x04 := by decide +kernel
/-- PRG-1, READ_P_INT. -/
theorem test_readPInt : (after (exec .readPInt { paired with pairedI := true })).resPInt = 100656 := by decide +kernel
/-- EX-10, PRG-6: `SV = 0x36` and FAULTS 0x20. -/
theorem test_readPInt_overflow :
    (after (exec .readPInt { paired with pairedI := true, tfineI := -721301 })).faults = 0x20 ∧
    (after (exec .readPInt { paired with pairedI := true, tfineI := -721301 })).sv = 0x36 := by decide +kernel
/-- PRG-3, READ_T_FLT. -/
theorem test_readTFlt :
    (after (exec .readTFlt sampling)).resTFlt = 0x4039151D460F8000 ∧
    (after (exec .readTFlt sampling)).tfineF = .s32 128422 ∧ (after (exec .readTFlt sampling)).pairedF = true := by
  decide +kernel
/-- PF-1. -/
theorem test_readPFlt :
    (after (exec .readPFlt { paired with pairedF := true })).resPFlt = 0x40F892D4215C750E := by decide +kernel
/-- PRG-3, EX-6: the pairing is per family. -/
theorem test_readPFlt_unpaired :
    (after (exec .readPFlt { paired with pairedI := true })).faults = 0x10 ∧
    (after (exec .readPFlt { paired with pairedI := true })).phase = .compute := by decide +kernel
/-- EX-8: decoding is checked before the busy flag. -/
theorem test_illegal_first :
    (after (step { base with busy := true, phase := .idRead, cmd := 1, agenda := [.host 0xFF] })).faults = 0x01 := by
  decide +kernel
/-- EX-9: the busy flag is checked before REINIT. -/
theorem test_reentrant_first : (after (exec .init { ready with busy := true })).faults = 0x02 := by decide +kernel

/-! ## The internal operations -/

/-- CAL-1, CAL-6. -/
theorem test_calParse :
    (parseCal cal1).t3.toInt = -1000 ∧ (parseCal cal1).p1.toNat = 36477 ∧ (parseCal cal1).p8.toInt = -14600 ∧
    (parseCal ([0x6B, 0x70] ++ cal1.drop 2)).t1.toNat = 28779 := by decide
/-- R160: SAMPLE latches the burst. -/
theorem test_sample :
    (after (exec .sample { sampling with busy := true })).raw = ⟨0x65, 0x5A, 0xC0, 0x7E, 0xED, 0x00⟩ ∧
    (after (exec .sample { sampling with busy := true })).settleTarget = 102 := by decide +kernel
/-- RU-5, RU-6. -/
theorem test_rawUnpack :
    exec (.rawUnpack [0x65, 0x5A, 0xCF, 0x7E, 0xED, 0x0F]) base =
      .next { base with opResult := some (.raw 415148 519888) } ∧
    (rawOfBytes [0, 0, 0x10, 0, 0, 0x10]).adcP = 1 := ⟨rfl, rfl⟩
/-- TI-2, TI-7. -/
theorem test_compTInt :
    compTInt .fault 0 27504 26435 (-1000) = .ok (-721301, -14088) ∧
    compTInt .fault 519888 0x8000 0x8000 0x8000 = .ok (8764, 171) := by decide +kernel
/-- TI-8. -/
theorem test_compTInt_overflow :
    compTInt .fault 1048575 0 32767 0 = .error .arithOverflow ∧ compTInt .wrap 1048575 0 32767 0 = .ok (-80, -2) := by
  decide +kernel
/-- PI-1, PI-3 (the second branch). -/
theorem test_compPInt32 :
    compPInt32 .fault 415148 128422 p1 = .ok 100656 ∧ compPInt32 .fault 0 128422 p1 = .ok 173204 := by decide +kernel
/-- PI-6, PI-8. -/
theorem test_compPInt32_corners :
    compPInt32 .fault 415148 (-721301) p1 = .error .arithOverflow ∧ compPInt32 .wrap 415148 (-721301) p1 = .ok 101280 ∧
    compPInt32 .fault 415148 128422 { p1 with p1 := 0 } = .ok 0 := by decide +kernel
/-- PI-2, PI-5 (a negative p, modulo 2^32). -/
theorem test_compPInt64 :
    compPInt64 .fault 415148 128422 p1 = .ok 25767233 ∧ compPInt64 .fault 1048575 128422 p1 = .ok 4293269792 := by
  decide +kernel
/-- PI-11, PI-8. -/
theorem test_compPInt64_corners :
    compPInt64 .fault 415148 8764 ⟨0x8000, 0x8000, 0x8000, 0x8000, 0x8000, 0x8000, 0x8000, 0x8000, 0x8000⟩ =
      .ok 37261970 ∧
    compPInt64 .fault 415148 128422 { p1 with p1 := 0 } = .ok 0 := by decide +kernel
/-- TF-2 (truncation toward zero), TF-1 with BINARY64. -/
theorem test_compTFlt :
    compTFlt .truncS32 0 27504 26435 (-1000) = .ok (.s32 (-721299), 0xC0619C1FC6900000) ∧
    compTFlt .binary64 519888 27504 26435 (-1000) = .ok (.f64 0x40FF5A6497936000, 0x4039151D460F8000) := by decide +kernel
/-- TF-7, TF-9. -/
theorem test_compTFlt_extreme :
    compTFlt .truncS32 519888 0xFFFF 0xFFFF 0xFFFF = .ok (.s32 15, 0x3F6999244B333333) ∧
    compTFlt .truncS32 1048575 0 32767 0 = .ok (.s32 2097086, 0x40799964CCD00000) := by decide +kernel
/-- PF-2, PF-5. -/
theorem test_compPFlt :
    compPFlt 415148 0x40FF5A6497936000 p1 = 0x40F892D444B6BA46 ∧
    compPFlt 1048575 (f64OfInt 128422) p1 = 0xC0B9E6DFDC4F7814 := by decide +kernel
/-- PF-8: the guarded denominator is -0.0. -/
theorem test_compPFlt_zero :
    pFltDenominator (f64OfInt (-2000000)) ⟨0, 32767, 0, 0, 0, 0, 0, 0, 0⟩ = 0x8000000000000000 ∧
    compPFlt 415148 (f64OfInt (-2000000)) ⟨0, 32767, 0, 0, 0, 0, 0, 0, 0⟩ = 0 := by decide +kernel

/-! ## Steps -/

/-- RS-3: a reset inside a transaction; HIST records nothing, and a TICK step and the reset's draw are apart. -/
theorem test_reset :
    (after (step { ready with cs := .asserted, bus := .active ⟨.read 6, [0, 0], [0xF7, 0, 0, 0, 0], [1, 2, 3, 4, 5], .accepted⟩,
                              busy := true, phase := .burst, agenda := [.reset] })).cs = .released ∧
    (after (step { ready with pairedI := true, agenda := [.reset] })).sv = 0x00 := by decide +kernel
/-- RS-4, EX-12: a quiescent block takes no reset; TICK still steps (R253). -/
theorem test_quiescent :
    step { ready with faults := 0x04, agenda := [.reset] } = .fault .quiescent ∧
    (after (step { ready with faults := 0x04, agenda := [.tick] })).ticks = 101 := ⟨rfl, by decide +kernel⟩
/-- R163: SETTLE ends at its target, not one tick earlier. -/
theorem test_settle :
    (after (step { settling with ticks := 101 })).phase = .settle ∧
    (after (step { settling with ticks := 102, quantum := 1 })).phase = .burst := by decide +kernel
/-- The very next step runs a placed word. -/
theorem test_withFetchWord : step (base.withFetchWord 8 0x10) = exec .readTInt base := by rfl
/-- HOST's program goes to the agenda (DESIGN CHOICE, log entry 14). -/
theorem test_loadProgram : (base.loadProgram [0x01, 0x10]).agenda = [.host 0x01, .host 0x10] := by decide +kernel

/-! ## Witnesses: the hypotheses of each statement, met together -/

theorem witness_DecodeInvertsEncode :
    ((Instr.spiRead 0xD0 1).wf = true ∧ encode (.spiRead 0xD0 1) = some (.frame [0xD0, 0])) ∧
    ((Instr.spiWrite 0xF4 0x25).wf = true ∧ encode (.spiWrite 0xF4 0x25) = some (.frame [0x74, 0x25])) := by decide +kernel
theorem witness_EncodeInvertsDecode :
    decodeWire (.command 0x20) = .ok .readTFlt ∧ decodeWire (.frame [0x88, 0, 0]) = .ok (.spiRead 0x88 2) := by decide +kernel
theorem witness_StepRunsHostCommand :
    base.cfg.wf = true ∧ base.faults = 0 ∧ decodeHost 0x01 = .ok .init ∧
    ({ base with agenda := [.host 0x01] } : State).upNext = .host 0x01 := by decide +kernel
theorem witness_StepRunsPlacedWord :
    base.cfg.wf = true ∧ base.faults = 0 ∧ base.busy = false ∧ decodeTableWord 8 0x11 = some .readPInt ∧
    decodeTableWord 16 0x00D0 = some (.spiRead 0xD0 1) := by decide +kernel
theorem witness_StepGoesOn :
    ({ base with agenda := [.seq] } : State).upNext = .seq ∧ base.cfg.wf = true ∧ base.faults = 0 ∧ base.phase = .idle ∧
    base.inTransaction = false ∧ (polling 0).upNext = .seq ∧ (polling 0).quantum = 1 ∧ (polling 0).faults = 0 ∧
    seqMicro (polling 0).moveTaken = some ((polling 0).moveTaken.beginRead 0xF3 1) := by
  refine ⟨?_, ?_, ?_, ?_, ?_, ?_, ?_, ?_, rfl⟩ <;> decide +kernel
/-- SEQ begins a status read, three TICK steps come, SEQ shifts a byte, RESET comes (R253, R271). -/
theorem witness_OthersMoveBetweenMicroSteps :
    (polling 3).cfg.wf = true ∧ (polling 3).faults = 0 ∧ (polling 3).quantum = 1 ∧
    (polling 3).agenda = .seq :: (List.replicate 3 .tick ++ .seq :: .reset :: []) ∧
    ∃ t u, seqMicro (polling 3).moveTaken = some t ∧ t.faults = 0 ∧
      seqMicro { t with ticks := t.ticks + 3, agenda := .reset :: [] } = some u ∧ u.faults = 0 :=
  ⟨by decide +kernel, rfl, rfl, rfl, _, _, rfl, rfl, rfl, rfl⟩
theorem witness_IllFormedConfigurationsRefused :
    ({ base with cfg := { cfg1 with xbufLen := 23 } } : State).cfg.wf = false := by decide +kernel
theorem witness_TickOnlyCounts :
    base.cfg.wf = true ∧ ({ base with agenda := [.tick, .reset] } : State).upNext = .tick := by decide +kernel
theorem witness_QuiescentTakesNoStep :
    let quiet (m : Move) : State := { base with faults := 0x40, agenda := [m] }
    (∀ m ∈ ([.seq, .host 0xFF, .spi [], .reset] : List Move),
      (quiet m).faults ≠ 0 ∧ (quiet m).cfg.wf = true ∧ (quiet m).upNext = m) := by decide +kernel
theorem witness_IllegalCodeFaults :
    base.cfg.wf = true ∧ base.faults = 0 ∧ ({ base with agenda := [.host 0x00] } : State).upNext = .host 0x00 ∧
    ∀ c ∈ ([0x00, 0x02, 0x0F, 0x12, 0x22, 0xFF] : List Byte),
      c ≠ 0x01 ∧ c ≠ 0x10 ∧ c ≠ 0x11 ∧ c ≠ 0x20 ∧ c ≠ 0x21 := by decide +kernel
/-- EX-7: a READ_T_INT in POLL. -/
theorem witness_ReentrantFaults :
    ({ ready with state := .measuring, busy := true, phase := .poll, cmd := 0x10 } : State).faults = 0 ∧
    ({ ready with state := .measuring, busy := true, phase := .poll, cmd := 0x10 } : State).busy = true ∧
    decodeHost 0x10 = .ok .readTInt := by decide +kernel
theorem witness_NotReadyFaults :
    base.faults = 0 ∧ base.busy = false ∧ base.state ≠ .ready ∧ decodeHost 0x21 = .ok .readPFlt ∧ (0x21 : Byte) ≠ 0x01 := by
  decide +kernel
/-- EX-4, EX-5. -/
theorem witness_ReinitFaults :
    ready.faults = 0 ∧ ready.busy = false ∧ ready.state ≠ .uninit ∧
    ({ base with state := .unsupported } : State).state ≠ .uninit := by decide +kernel
theorem witness_UnpairedPressureFaults :
    Admits .ready paired ∧ 1 ≤ ({ paired with quantum := 1 } : State).quantum ∧ paired.pairedI = false ∧
    paired.pairedF = false := ⟨⟨rfl, rfl, rfl, rfl⟩, by decide +kernel, rfl, rfl⟩
theorem witness_PressureOverflowFaults :
    Admits .ready { paired with pairedI := true, tfineI := -721301 } ∧
    compPInt .int32 .fault paired.raw.adcP (-721301) paired.cal.pressure = .error .arithOverflow :=
  ⟨⟨rfl, rfl, rfl, rfl⟩, by decide +kernel⟩
theorem witness_ResetStepResets :
    ready.cfg.wf = true ∧ ready.faults = 0 ∧ ({ ready with agenda := [.reset] } : State).upNext = .reset := by
  decide +kernel
theorem witness_SpiWriteCompletes :
    base.faults = 0 ∧ base.inTransaction = false ∧ BusLive base ∧ 4 ≤ ({ base with quantum := 4 } : State).quantum :=
  ⟨rfl, rfl, rfl, by decide +kernel⟩
/-- Counts at both ends of the range, and just outside it. -/
theorem witness_SpiReadCompletes :
    base.faults = 0 ∧ base.inTransaction = false ∧ BusLive base ∧ (1 ≤ 1 ∧ 1 ≤ base.cfg.xbufLen ∧ 1 + 3 ≤ base.quantum) ∧
    (1 ≤ 24 ∧ 24 ≤ base.cfg.xbufLen ∧ 24 + 3 ≤ base.quantum) ∧ base.cfg.xbufLen < 25 :=
  ⟨rfl, rfl, rfl, by decide +kernel, by decide +kernel, by decide +kernel⟩
theorem witness_ReadDiscardsOneByte :
    base.xbuf.length = base.cfg.xbufLen ∧ 6 ≤ base.cfg.xbufLen ∧ 6 + 3 ≤ base.quantum := by decide +kernel
/-- A transaction begun, and one held up. -/
theorem witness_TransportFrame :
    (∃ t, exec (.spiWrite 0xF4 0x25) base = .next t) ∧ (∃ t, exec (.spiRead 0xD0 1) { base with busReady := false } = .next t) ∧
    1 ≤ base.xbuf.length := ⟨⟨_, rfl⟩, ⟨_, rfl⟩, by decide +kernel⟩
theorem witness_HoldsWithoutEnd :
    base.cfg.wf = true ∧ base.faults = 0 ∧ base.agenda = [] ∧
    ({ base with busReady := false }.beginRead 0xD0 1).inTransaction = true ∧
    ({ base with busReady := false }.beginRead 0xD0 1).busReady = false ∧
    (∀ i, byTurns i = .seq ∨ byTurns i = .tick ∨ byTurns i = .bus false) ∧
    settling.phase = .settle ∧ settling.bus = .idle ∧ settling.ticks < settling.settleTarget ∧
    ∀ i, (fun _ : Nat => Turn.seq) i = .seq ∨ ∃ b, (fun _ : Nat => Turn.seq) i = .bus b :=
  ⟨by decide +kernel, rfl, rfl, rfl, rfl, fun i => by unfold byTurns; split <;> simp, rfl, rfl, by decide +kernel,
    fun _ => .inl rfl⟩
theorem witness_SettleEndsUnderTickFair :
    let s : State := { settling with agenda := [] }
    s.cfg.wf = true ∧ s.faults = 0 ∧ s.agenda = [] ∧ s.phase = .settle ∧ s.bus = .idle ∧ 1 ≤ s.quantum ∧
    (∀ i, byTurns i = .seq ∨ byTurns i = .tick ∨ ∃ b, byTurns i = .bus b) ∧ TickFair byTurns ∧ SeqFair byTurns :=
  ⟨by decide +kernel, rfl, rfl, rfl, rfl, by decide +kernel, fun i => by unfold byTurns; split <;> simp,
    fun n => ⟨2 * n, by omega, by simp [byTurns]⟩, fun n => ⟨2 * n + 1, by omega, by simp [byTurns]⟩⟩
theorem witness_InitCompletes :
    Admits .uninit base ∧ BusLive base ∧ 37 ≤ ({ base with quantum := 37 } : State).quantum :=
  ⟨⟨rfl, rfl, rfl, rfl⟩, rfl, by decide +kernel⟩
theorem witness_InitLoadsCalibration :
    Admits .uninit (before 0x60) ∧ BusLive (before 0x60) ∧ 37 ≤ (before 0x60).quantum ∧
    (before 0x60).xbuf.length = (before 0x60).cfg.xbufLen ∧ (before 0x60).cfg.wf = true ∧
    (before 0x60).sensor = 0xAA :: 0x60 :: 0xBB :: (cal1 ++ []) ∧ cal1.length = 24 ∧ identify 0x60 = some .variantB :=
  ⟨⟨rfl, rfl, rfl, rfl⟩, rfl, by decide +kernel, by decide +kernel, by decide +kernel, rfl, rfl, rfl⟩
theorem witness_InitRejectsOtherCodes :
    Admits .uninit (before 0x59) ∧ BusLive (before 0x59) ∧ 7 ≤ (before 0x59).quantum ∧
    (before 0x59).sensor = 0xAA :: 0x59 :: (0xBB :: cal1) ∧ (0x59 : Byte) ≠ 0x58 ∧ (0x59 : Byte) ≠ 0x60 :=
  ⟨⟨rfl, rfl, rfl, rfl⟩, rfl, by decide +kernel, rfl, by decide +kernel, by decide +kernel⟩
theorem witness_InitFrame : ∃ t, exec .init (before 0x58) = .next t := ⟨_, rfl⟩
theorem witness_SampleCompletes :
    ({ sampling with busy := true } : State).faults = 0 ∧ ({ sampling with busy := true } : State).inTransaction = false ∧
    ({ sampling with busy := true } : State).state = .ready ∧ ({ sampling with busy := true } : State).busy = true ∧
    BusLive { sampling with busy := true } ∧ TicksComing { sampling with busy := true } ∧
    ({ sampling with busy := true } : State).triggerAll.pollEnds 1 = true ∧
    24 + 6 * 1 + ({ sampling with busy := true } : State).cfg.settleTicks ≤ sampling.quantum :=
  ⟨rfl, rfl, rfl, rfl, rfl, rfl, by decide +kernel, by decide +kernel⟩
/-- A completion with a value, and one with an overflow (TI-8's coefficients and a raw value of all ones). -/
theorem witness_ReadTIntCompletes :
    Admits .ready sampling ∧ BusLive sampling ∧ TicksComing sampling ∧
    (sampling.admitted 0x10).triggerAll.pollEnds 1 = true ∧ 27 + 6 * 1 + sampling.cfg.settleTicks ≤ sampling.quantum ∧
    compTInt .fault ((sampling.admitted 0x10).sampleAll 1).raw.adcT sampling.cal.t1 sampling.cal.t2 sampling.cal.t3 =
      .ok (128422, 2508) :=
  ⟨⟨rfl, rfl, rfl, rfl⟩, rfl, rfl, by decide +kernel, by decide +kernel, by decide +kernel⟩
theorem witness_ReadTIntCompletes_overflow :
    let s : State :=
      { sampling with
        cal := { CalibrationSet.zero with t2 := 32767 }
        sensor := [0, 0, 0, 0, 0, 0, 0, 0, 0xFF, 0xFF, 0xFF] }
    Admits .ready s ∧ BusLive s ∧ TicksComing s ∧ (s.admitted 0x10).triggerAll.pollEnds 0 = true ∧
    compTInt .fault ((s.admitted 0x10).sampleAll 0).raw.adcT s.cal.t1 s.cal.t2 s.cal.t3 = .error .arithOverflow :=
  ⟨⟨rfl, rfl, rfl, rfl⟩, rfl, rfl, by decide +kernel, by decide +kernel⟩
theorem witness_ReadTFltCompletes :
    Admits .ready sampling ∧ BusLive sampling ∧ TicksComing sampling ∧
    (sampling.admitted 0x20).triggerAll.pollEnds 1 = true ∧ 27 + 6 * 1 + sampling.cfg.settleTicks ≤ sampling.quantum ∧
    compTFlt .truncS32 ((sampling.admitted 0x20).sampleAll 1).raw.adcT sampling.cal.t1 sampling.cal.t2 sampling.cal.t3 =
      .ok (.s32 128422, 0x4039151D460F8000) :=
  ⟨⟨rfl, rfl, rfl, rfl⟩, rfl, rfl, by decide +kernel, by decide +kernel, by decide +kernel⟩
theorem witness_MeasuringFrame :
    (∃ t, exec .readTInt sampling = .next t) ∧ (∃ t, exec .readTFlt sampling = .next t) ∧
    ∃ t, exec .sample { sampling with busy := true } = .next t := ⟨⟨_, rfl⟩, ⟨_, rfl⟩, ⟨_, rfl⟩⟩
theorem witness_PollHasNoBound :
    let s : State := { sampling with sensor := [0, 0, 0, 8, 0, 0xFF, 0, 9], quantum := 24 }
    Admits .ready s ∧ BusLive s ∧ (s.admitted 0x10).triggerAll.pollBusy 3 = true ∧ s.quantum = 6 + 6 * 3 :=
  ⟨⟨rfl, rfl, rfl, rfl⟩, rfl, by decide +kernel, rfl⟩
theorem witness_ReadPIntCompletes :
    Admits .ready { paired with pairedI := true } ∧ 2 ≤ ({ paired with quantum := 2 } : State).quantum ∧
    compPInt .int32 .fault paired.raw.adcP paired.tfineI paired.cal.pressure = .ok 100656 :=
  ⟨⟨rfl, rfl, rfl, rfl⟩, by decide +kernel, by decide +kernel⟩
theorem witness_ReadPFltCompletes :
    Admits .ready { paired with pairedF := true } ∧ 2 ≤ paired.quantum := ⟨⟨rfl, rfl, rfl, rfl⟩, by decide +kernel⟩
theorem witness_ReadPressureFrame :
    (∃ t, exec .readPInt paired = .next t) ∧ ∃ t, exec .readPFlt { paired with pairedF := true } = .next t :=
  ⟨⟨_, rfl⟩, ⟨_, rfl⟩⟩
theorem witness_PressureReadsRepeat :
    Admits .ready { paired with pairedI := true } ∧ Admits .ready { paired with pairedF := true } ∧ 2 ≤ paired.quantum ∧
    compPInt .int32 .fault paired.raw.adcP paired.tfineI paired.cal.pressure = .ok 100656 :=
  ⟨⟨rfl, rfl, rfl, rfl⟩, ⟨rfl, rfl, rfl, rfl⟩, by decide +kernel, by decide +kernel⟩
theorem witness_CalParseCompletes : base.faults = 0 ∧ cal1.length = 24 := by decide +kernel
theorem witness_RawUnpackCompletes : base.faults = 0 := by decide +kernel
/-- TI-1's operands, and TI-3's, the highest raw value. -/
theorem witness_CompTIntFormula :
    adcInRange 519888 = true ∧ adcInRange 1048575 = true ∧
    ∀ a ∈ ([519888, 0, 1048575] : List Int),
      inS32 ((asr a 3 - 2 * 27504) * 26435) = true ∧ inS32 ((asr a 4 - 27504) * (asr a 4 - 27504)) = true ∧
      inS32 (asr ((asr a 4 - 27504) * (asr a 4 - 27504)) 12 * -1000) = true := by decide +kernel
/-- COMP_T_INT: TI-1, TI-8 (an overflow). COMP_P_INT32: PI-1, PI-3 (the second branch), PI-8, PI-6 (an overflow). COMP_P_INT64:
PI-2, PI-8, and a fine temperature of large magnitude, whose square times P6 leaves s64. -/
theorem witness_IntegerOpsAnswerOrOverflow :
    base.faults = 0 ∧ base.cfg.overflowMode = .fault ∧
    exactTInt 519888 27504 26435 (-1000) = (true, 128422, 2508) ∧ (exactTInt 1048575 0 32767 0).1 = false ∧
    exactPInt32 415148 128422 p1 = (true, 100656) ∧ exactPInt32 0 128422 p1 = (true, 173204) ∧
    exactPInt32 415148 128422 { p1 with p1 := 0 } = (true, 0) ∧ (exactPInt32 415148 (-721301) p1).1 = false ∧
    exactPInt64 415148 128422 p1 = (true, 25767233) ∧ exactPInt64 415148 128422 { p1 with p1 := 0 } = (true, 0) ∧
    (exactPInt64 0 0x7FFFFFFF ⟨1, 0, 0, 0, 0, 32767, 0, 0, 0⟩).1 = false := by decide +kernel
theorem witness_WrapIsMachineArithmetic :
    ({ base with cfg := { cfg1 with overflowMode := .wrap } } : State).faults = 0 ∧
    ({ base with cfg := { cfg1 with overflowMode := .wrap } } : State).cfg.overflowMode = .wrap := by decide +kernel
/-- PI-8 (a value), and PI-6's fine temperature (an overflow before the guard, C4). -/
theorem witness_ZeroP1GivesZeroPressure :
    base.faults = 0 ∧ base.cfg.overflowMode = .fault ∧ ({ p1 with p1 := 0 } : PressureCoeffs).p1 = 0 ∧
    (exactPInt32Head 128422 { p1 with p1 := 0 }).1 = true ∧ (exactPInt64Head 128422 { p1 with p1 := 0 }).1 = true ∧
    (exactPInt32Head (-721301) { p1 with p1 := 0 }).1 = false ∧
    (pInt32Head .fault (-721301) { p1 with p1 := 0 } = .error .arithOverflow) := by decide +kernel
/-- Both clauses at the ends of their ranges. -/
theorem witness_CompPInt32OverflowWindow :
    base.faults = 0 ∧ base.cfg.overflowMode = .fault ∧ (BitVec.ofInt 32 (-242721)).toInt < -242720 ∧
    498727 < (BitVec.ofInt 32 498728).toInt ∧ -242720 ≤ (BitVec.ofInt 32 (-242720)).toInt ∧
    (BitVec.ofInt 32 498727).toInt ≤ 498727 := by decide +kernel
theorem test_CompPInt32OverflowWindow :
    compPInt32 .fault 0 (BitVec.ofInt 32 (-242721)) p1 = .error .arithOverflow ∧
    compPInt32 .fault 0 (BitVec.ofInt 32 498728) p1 = .error .arithOverflow := by decide +kernel
theorem witness_Cal1NeverOverflows :
    base.faults = 0 ∧ adcInRange 0 = true ∧ adcInRange 1048575 = true ∧
    p1 = ⟨36477, -10685, 3024, 2855, 140, -7, 15500, -14600, 6000⟩ := by decide +kernel
theorem witness_IntegersConvertExactly :
    (-9007199254740991 : Int).natAbs < 2 ^ 53 ∧ (-2 ^ 31 ≤ (-2147483648 : Int) ∧ (-2147483648 : Int) < 2 ^ 31) := by
  decide +kernel
theorem witness_CompTFltNeverFaults :
    base.faults = 0 ∧ adcInRange 1048575 = true ∧ base.cfg.floatTfineKind = .truncS32 ∧
    ({ base with cfg := { cfg1 with floatTfineKind := .binary64 } } : State).cfg.floatTfineKind = .binary64 := by
  decide +kernel
theorem witness_CompPFltCompletes : base.faults = 0 := by decide +kernel
/-- Both kinds: TF-1's sum as BINARY64 has it, and `2^22` itself. -/
theorem witness_ZeroP1GivesPositiveZero :
    base.faults = 0 ∧ ({ p1 with p1 := 0 } : PressureCoeffs).p1 = 0 ∧ TfineFBounded (.s32 0x80000000) ∧
    TfineFBounded (.f64 0x40FF5A6497936000) ∧ TfineFBounded (.f64 0x4150000000000000) :=
  ⟨rfl, rfl, trivial, by constructor <;> decide +kernel, by constructor <;> decide +kernel⟩
/-- The invariant and a step: HOST's READ_T_INT on a READY block. -/
theorem witness_StepKeepsInv : Inv { sampling with agenda := .host 0x10 :: sampling.agenda } ∧
    ∃ t, step { sampling with agenda := .host 0x10 :: sampling.agenda } = .next t :=
  ⟨⟨by decide +kernel, by decide +kernel, by decide +kernel, by decide +kernel, by decide +kernel, by decide +kernel,
    by decide +kernel, by decide +kernel⟩, ⟨_, rfl⟩⟩
theorem witness_FaultsStickHistoryGrows : ∃ t, step { (before 0x58) with agenda := [.host 0x01] } = .next t := ⟨_, rfl⟩
theorem witness_CalibrationIsImmutable : Inv settling ∧ settling.state ≠ .uninit ∧ settling.upNext ≠ .reset ∧
    ∃ t, step settling = .next t :=
  ⟨⟨by decide +kernel, by decide +kernel, by decide +kernel, by decide +kernel, by decide +kernel, by decide +kernel,
    by decide +kernel, by decide +kernel⟩, by decide +kernel, by decide +kernel, ⟨_, rfl⟩⟩
theorem witness_OnlyItsAccessorWrites : settling.upNext ≠ .reset ∧ ∃ t, step settling = .next t :=
  ⟨by decide +kernel, ⟨_, rfl⟩⟩
theorem witness_DriverStateTransitions : Inv settling ∧ ∃ t, step settling = .next t :=
  ⟨⟨by decide +kernel, by decide +kernel, by decide +kernel, by decide +kernel, by decide +kernel, by decide +kernel,
    by decide +kernel, by decide +kernel⟩, ⟨_, rfl⟩⟩

end Sys2Proof.Tests
end

section
/-!
Truncation of exact binary64 values (R13, R221), the reading of R9's clauses, and a turn of SEQ on an idle block (R15, R273).
-/

namespace Sys2Proof.Machine

variable {s : State}

/-- The quotient inside `f64TruncInt` is exact where the magnitude is a natural number. -/
theorem f64Sig_quotient_of_abs {x : F64} {m : Nat} (h : f64Abs x = m) :
    f64Sig x * 2 ^ (f64Pow x).toNat / 2 ^ (-f64Pow x).toNat = m := by
  have hp : f64Pow x + ((-f64Pow x).toNat : Int) = ((f64Pow x).toNat : Int) := by omega
  have hq : (f64Sig x : ℚ) * 2 ^ (f64Pow x).toNat = m * 2 ^ (-f64Pow x).toNat := by
    rw [← h, f64Abs, mul_assoc, ← zpow_natCast, ← zpow_natCast, ← zpow_add₀ two_ne_zero, hp]
  have hn : f64Sig x * 2 ^ (f64Pow x).toNat = m * 2 ^ (-f64Pow x).toNat := by exact_mod_cast hq
  exact Nat.div_eq_of_eq_mul_left (by positivity) hn

/-- Truncation keeps a number whose exact value is an integer. -/
theorem f64TruncInt_of_value {x : F64} {n : Int} (h : f64Value x = n) : f64TruncInt x = n := by
  have habs : f64Abs x = n.natAbs := by rw [← f64Value_abs, h, ← Int.cast_abs, Int.abs_eq_natAbs, Int.cast_natCast]
  have hval : f64Value x = if x.msb then -f64Abs x else f64Abs x := by
    unfold f64Value f64Abs
    split <;> ring
  rw [h, habs] at hval
  rw [f64TruncInt, f64Sig_quotient_of_abs habs]
  apply Int.cast_injective (α := ℚ)
  cases hx : x.msb <;> simpa [hx] using hval.symm

/-- `trunc_s32` answers the truncated integer of a finite number where that is an s32 (R221). -/
theorem truncS32_of_fits {x : F64} (hx : f64Exp x ≠ 2047) (h0 : -2 ^ 31 ≤ f64TruncInt x) (h1 : f64TruncInt x < 2 ^ 31) :
    truncS32 x = .ok (BitVec.ofInt 32 (f64TruncInt x)) := by
  rw [truncS32, if_neg hx, if_pos ⟨h0, h1⟩]

/-- R9's clauses (a) to (e). -/
theorem params_wf_iff (p : Params) : p.wf = true ↔
    (p.regId.getLsbD 7 = true ∧ p.regCalib.getLsbD 7 = true ∧ p.regStatus.getLsbD 7 = true ∧ p.regData.getLsbD 7 = true) ∧
    (p.regCalib.toNat + 23 ≤ 0xFF ∧ p.regData.toNat + 5 ≤ 0xFF) ∧ p.statusMeasuringMask ≠ 0 ∧ 24 ≤ p.xbufLen ∧
    addrPhaseLen = 1 := by
  simp only [Params.wf, BitVec.msb_eq_getLsbD_last, Bool.and_eq_true, decide_eq_true_eq, and_assoc]

/-- R9: an ill-formed configuration is refused before any step, under every schedule. -/
theorem stepUnder_of_not_wf {sched : Nat → Turn} (hc : s.cfg.wf = false) :
    stepUnder sched s = .refused .illFormedConfig := by
  simp [stepUnder, stepWith, hc]

/-- Nothing can move in an idle block with no transaction in progress, a completed one that nobody took included. -/
theorem advance_of_idle_no_transaction (hp : s.phase = .idle) (ht : s.inTransaction = false) : advance s = none := by
  cases hb : s.bus with
  | idle => exact advance_idle hp hb
  | active f => simp [State.inTransaction, hb] at ht
  | done => simp [advance, seqMicro, hb, afterBus, phaseStep, hp, State.waiting]

end Sys2Proof.Machine
end

section
/-! The statements of 00_scope.md, settled. -/

namespace Sys2Proof.Machine

/-- Settles O51: the conversion is exact (`f64Value_ofInt`), and truncation keeps an exact integer. -/
theorem integersConvertExactly : Obligations.IntegersConvertExactly := by
  intro n hn
  obtain ⟨hlt, hval⟩ := f64Value_ofInt hn
  have hfin : f64Exp (f64OfInt n) ≠ 2047 := hlt.ne
  have htrunc := f64TruncInt_of_value hval
  refine ⟨hfin, hval, htrunc, fun h0 h1 => ?_⟩
  rw [truncS32_of_fits hfin (by rwa [htrunc]) (by rwa [htrunc]), htrunc]

/-- Settles O7: a turn of SEQ is `runSeq`; a quantum of 1 is one micro-step; nothing moves in an idle block. -/
theorem stepGoesOn : Obligations.StepGoesOn := by
  intro s hc hf hn
  refine ⟨stepUnder_seq hc hf hn, fun hq t ht => stepUnder_micro hc hf hn hq ht, fun hp ht => ?_⟩
  exact stepUnder_stuck hc hf hn (advance_of_idle_no_transaction hp ht)

/-- Settles O8: R9's clauses are `Params.wf`, which every step checks first and the default record passes. -/
theorem illFormedConfigurationsRefused : Obligations.IllFormedConfigurationsRefused :=
  ⟨params_wf_iff, fun _ hc => stepUnder_of_not_wf hc, by decide⟩

end Sys2Proof.Machine
end

section
/-!
Where a run of SEQ can take PHASE (R36), and what it changes, read off the phases it visits (R42): a register is written only
from the phase that writes it, so a run that stays out of that phase keeps the register.
-/

namespace Sys2Proof.Machine

variable {stop : State → Bool} {s t u : State} {S : List Phase}

/-- The successors of each phase (R36, R151 to R173). -/
def phaseEdges : List (Phase × Phase) :=
  [(.idRead, .calRead), (.idRead, .done), (.calRead, .parse), (.parse, .done), (.trigger, .poll), (.poll, .settle),
    (.settle, .burst), (.burst, .compute), (.compute, .done), (.done, .idle)]

/-- PHASE stays, or goes along an edge; it leaves BURST only when SAMPLE has ended. -/
def PhaseMove (s t : State) : Prop :=
  t.phase = s.phase ∨ ((s.phase, t.phase) ∈ phaseEdges ∧ (s.phase = .burst → sampleDone s = true))

/-- COMPUTE writes the result of the command in progress, or raises a fault (R170 to R173). -/
theorem computeStep_cases (h : computeStep s = some t) :
    (∃ tf v, s.cmd = 0x10 ∧ t = { s with tfineI := tf, resTInt := v, phase := .done }.pairInt) ∨
    (∃ tf v, s.cmd = 0x20 ∧ compTFlt s.cfg.floatTfineKind s.raw.adcT s.cal.t1 s.cal.t2 s.cal.t3 = .ok (tf, v) ∧
      t = { s with tfineF := tf, resTFlt := v, phase := .done }.pairFlt) ∨
    (∃ p, s.cmd = 0x11 ∧ t = { s with resPInt := p, phase := .done }) ∨
    (∃ p, s.cmd = 0x21 ∧ t = { s with resPFlt := p, phase := .done }) ∨
    ∃ f, t = s.raise f := by
  unfold computeStep at h
  split at h
  · rename_i hc
    obtain rfl := Option.some.inj h
    rcases computeTInt_cases s with ⟨tf, v, h⟩ | ⟨f, h⟩
    · exact .inl ⟨tf, v, hc, h⟩
    · exact .inr (.inr (.inr (.inr ⟨f, h⟩)))
  split at h
  · rename_i hc
    obtain rfl := Option.some.inj h
    unfold computeTFlt
    split
    · rename_i tf v hv
      exact .inr (.inl ⟨tf, v, hc, hv, rfl⟩)
    · exact .inr (.inr (.inr (.inr ⟨_, rfl⟩)))
  split at h
  · rename_i hc
    obtain rfl := Option.some.inj h
    rcases computePInt_cases s with ⟨p, h⟩ | ⟨f, h⟩
    · exact .inr (.inr (.inl ⟨p, hc, h⟩))
    · exact .inr (.inr (.inr (.inr ⟨f, h⟩)))
  split at h
  · rename_i hc
    obtain rfl := Option.some.inj h
    rcases computePFlt_cases s with ⟨p, h⟩ | ⟨f, h⟩
    · exact .inr (.inr (.inr (.inl ⟨p, hc, h⟩)))
    · exact .inr (.inr (.inr (.inr ⟨f, h⟩)))
  · cases h

theorem computeStep_phase (h : computeStep s = some t) : t.phase = s.phase ∨ t.phase = .done := by
  rcases computeStep_cases h with ⟨_, _, -, rfl⟩ | ⟨_, _, -, -, rfl⟩ | ⟨_, -, rfl⟩ | ⟨_, -, rfl⟩ | ⟨_, rfl⟩ <;> simp

theorem phaseMove_phaseStep (hn : s.inTransaction = false) (h : phaseStep s = some t) : PhaseMove s t := by
  unfold phaseStep at h
  split at h
  case h_9 hp => exact (computeStep_phase h).imp_right fun hd => by simp [hp, hd, phaseEdges]
  all_goals try split at h
  all_goals try split at h
  all_goals try cases h; done
  all_goals obtain rfl := Option.some.inj h
  all_goals simp_all [PhaseMove, phaseEdges, parseStep, exitStep, sampleDone]

theorem phaseMove_afterBus (hn : s.inTransaction = false) (h : afterBus s = some t) : PhaseMove s t := by
  unfold afterBus at h
  split at h
  case h_6 => exact phaseMove_phaseStep hn h
  all_goals obtain rfl := Option.some.inj h
  · unfold idReadDone; split <;> simp_all [PhaseMove, phaseEdges]
  · simp_all [PhaseMove, phaseEdges]
  · simp_all [PhaseMove, phaseEdges]
  · unfold pollDone; split <;> simp_all [PhaseMove, phaseEdges]
  · exact .inl rfl

theorem phaseMove_advance (h : advance s = some t) : PhaseMove s t := by
  rcases advance_cases h with h | ⟨-, -, ⟨rest, -, rfl⟩ | ⟨b, rest, -, rfl⟩⟩
  · unfold seqMicro at h
    split at h
    · rcases (busMicro_cases h).2 with ⟨-, rfl⟩ | ⟨-, -, rfl⟩ | ⟨_, _, -, -, rfl⟩ <;> exact .inl rfl
    · rename_i hb; exact phaseMove_phaseStep (by simp [State.inTransaction, hb]) h
    · rename_i hb; exact phaseMove_afterBus (by simp [State.inTransaction, hb]) h
  · exact .inl rfl
  · exact .inl rfl

/-- A run that stops at `stop` does not leave the phases `S`. -/
def StaysIn (stop : State → Bool) (S : List Phase) : Prop :=
  ∀ a b : State, a.phase ∈ S → stop a = false → advance a = some b → b.phase ∈ S

theorem staysIn_of_closed (hS : ∀ e ∈ phaseEdges, e.1 ∈ S → e.2 ∈ S) : StaysIn stop S := by
  intro a b ha _ h
  rcases phaseMove_advance h with hp | ⟨he, -⟩
  · rwa [hp]
  · exact hS _ he ha

/-- The phases of INIT and what follows it. -/
def initPhases : List Phase := [.idRead, .calRead, .parse, .done, .idle]

/-- The phases of SAMPLE (R160). -/
def samplePhases : List Phase := [.trigger, .poll, .settle, .burst]

/-- The phases with no bus activity, those of a pressure accessor and what follows it. -/
def buslessPhases : List Phase := [.compute, .done, .idle]

theorem initPhases_staysIn : StaysIn stop initPhases := staysIn_of_closed (by decide)

theorem accessorPhases_staysIn : StaysIn stop (samplePhases ++ buslessPhases) := staysIn_of_closed (by decide)

theorem buslessPhases_staysIn : StaysIn stop buslessPhases := staysIn_of_closed (by decide)

/-- SAMPLE on its own stops before COMPUTE. -/
theorem samplePhases_staysIn : StaysIn sampleDone samplePhases := by
  intro a b ha hs h
  rcases phaseMove_advance h with hp | ⟨he, hd⟩
  · rwa [hp]
  · have hne : a.phase ≠ .burst := fun hb => by simp [hd hb] at hs
    exact (show ∀ e ∈ phaseEdges, e.1 ∈ samplePhases → e.1 ≠ .burst → e.2 ∈ samplePhases by decide) _ he ha hne

/-- What a run from `s` to `t` through the phases `S` changes. -/
structure RunFrame (S : List Phase) (s t : State) : Prop where
  cfg : t.cfg = s.cfg
  cmd : t.cmd = s.cmd
  quantum : t.quantum = s.quantum
  turns : t.turns = s.turns
  opResult : t.opResult = s.opResult
  state : t.state = s.state ∨ .idRead ∈ S ∨ .parse ∈ S ∨ .burst ∈ S
  kind : t.kind = s.kind ∨ .idRead ∈ S
  busy : t.busy = s.busy ∨ .done ∈ S
  cal : t.cal = s.cal ∨ .parse ∈ S
  raw : t.raw = s.raw ∨ .burst ∈ S
  settleTarget : t.settleTarget = s.settleTarget ∨ .poll ∈ S
  tfineI : t.tfineI = s.tfineI ∨ (.compute ∈ S ∧ s.cmd = 0x10)
  resTInt : t.resTInt = s.resTInt ∨ (.compute ∈ S ∧ s.cmd = 0x10)
  tfineF : t.tfineF = s.tfineF ∨ (.compute ∈ S ∧ s.cmd = 0x20)
  resTFlt : t.resTFlt = s.resTFlt ∨ (.compute ∈ S ∧ s.cmd = 0x20)
  resPInt : t.resPInt = s.resPInt ∨ (.compute ∈ S ∧ s.cmd = 0x11)
  resPFlt : t.resPFlt = s.resPFlt ∨ (.compute ∈ S ∧ s.cmd = 0x21)
  pairing : (t.pairedI = s.pairedI ∧ t.pairedF = s.pairedF) ∨
    (.compute ∈ S ∧ s.cmd = 0x10 ∧ t.pairedI = true ∧ t.pairedF = false) ∨
    (.compute ∈ S ∧ s.cmd = 0x20 ∧ t.pairedF = true ∧ t.pairedI = false)
  results : t.results = s.results ∨ .done ∈ S
  faults : t.faults = s.faults ∨ .compute ∈ S

theorem runFrame_refl (S : List Phase) (s : State) : RunFrame S s s := by constructor <;> simp

theorem kept_trans {α : Type} {x y z : α} {p : Prop} (h : y = x ∨ p) (h' : z = y ∨ p) : z = x ∨ p := by
  rcases h with rfl | hp
  · exact h'
  · exact .inr hp

theorem runFrame_trans (h : RunFrame S s t) (h' : RunFrame S t u) : RunFrame S s u where
  cfg := h'.cfg.trans h.cfg
  cmd := h'.cmd.trans h.cmd
  quantum := h'.quantum.trans h.quantum
  turns := h'.turns.trans h.turns
  opResult := h'.opResult.trans h.opResult
  state := kept_trans h.state h'.state
  kind := kept_trans h.kind h'.kind
  busy := kept_trans h.busy h'.busy
  cal := kept_trans h.cal h'.cal
  raw := kept_trans h.raw h'.raw
  settleTarget := kept_trans h.settleTarget h'.settleTarget
  tfineI := kept_trans h.tfineI (h.cmd ▸ h'.tfineI)
  resTInt := kept_trans h.resTInt (h.cmd ▸ h'.resTInt)
  tfineF := kept_trans h.tfineF (h.cmd ▸ h'.tfineF)
  resTFlt := kept_trans h.resTFlt (h.cmd ▸ h'.resTFlt)
  resPInt := kept_trans h.resPInt (h.cmd ▸ h'.resPInt)
  resPFlt := kept_trans h.resPFlt (h.cmd ▸ h'.resPFlt)
  pairing := by
    have h₂ := h'.pairing
    rw [h.cmd] at h₂
    rcases h₂ with ⟨hi, hf⟩ | h₂
    · rw [hi, hf]; exact h.pairing
    · exact .inr h₂
  results := kept_trans h.results h'.results
  faults := kept_trans h.faults h'.faults

theorem runFrame_of_move (hp : s.phase ∈ S) (h : MoveFrame s t) : RunFrame S s t :=
  have mem {p : Phase} (hs : s.phase = p) : p ∈ S := hs ▸ hp
  { cfg := h.cfg
    cmd := h.cmd
    quantum := h.quantum
    turns := h.turns
    opResult := h.opResult
    state := h.state.imp_right (Or.imp (mem ∘ And.left) (Or.imp mem mem ∘ And.left))
    kind := h.kind.imp_right mem
    busy := h.busy.imp_right (mem ∘ And.left)
    cal := h.cal.imp_right mem
    raw := h.raw.imp_right mem
    settleTarget := h.settleTarget.imp_right mem
    tfineI := h.int.imp And.left (And.imp_left mem)
    resTInt := h.int.imp And.right (And.imp_left mem)
    tfineF := h.flt.imp And.left (And.imp_left mem)
    resTFlt := h.flt.imp And.right (And.imp_left mem)
    resPInt := h.resPInt.imp_right (And.imp_left mem)
    resPFlt := h.resPFlt.imp_right (And.imp_left mem)
    pairing := h.pairing.imp_right (Or.imp (And.imp_left mem) (And.imp_left mem))
    results := h.results.imp_right (mem ∘ And.left)
    faults := h.faults.imp_right (mem ∘ And.left) }

/-- The frame of a run that does not leave the phases `S`. -/
theorem runFrame_seqRun (hS : StaysIn stop S) (hp : s.phase ∈ S) (n : Nat) : RunFrame S s (seqRun stop n s) := by
  have h : (seqRun stop n s).phase ∈ S ∧ RunFrame S s (seqRun stop n s) := by
    refine seqRun_induct (fun a => a.phase ∈ S ∧ RunFrame S s a) ?_ n ⟨hp, runFrame_refl S s⟩
    rintro a b ⟨ha, hr⟩ - hs h
    exact ⟨hS a b ha hs h, runFrame_trans hr (runFrame_of_move ha (moveFrame_advance h))⟩
  exact h.2

/-! ## A run with no bus activity -/

/-- The transport, SENSOR, TICK and the bus hardware as they were (R42). -/
structure BusKept (s t : State) : Prop where
  xbuf : t.xbuf = s.xbuf
  cs : t.cs = s.cs
  hist : t.hist = s.hist
  bus : t.bus = s.bus
  ticks : t.ticks = s.ticks
  busReady : t.busReady = s.busReady
  sensor : t.sensor = s.sensor
  agenda : t.agenda = s.agenda
  draws : t.draws = s.draws

theorem busKept_refl (s : State) : BusKept s s := by constructor <;> rfl

theorem busKept_trans (h : BusKept s t) (h' : BusKept t u) : BusKept s u where
  xbuf := h'.xbuf.trans h.xbuf
  cs := h'.cs.trans h.cs
  hist := h'.hist.trans h.hist
  bus := h'.bus.trans h.bus
  ticks := h'.ticks.trans h.ticks
  busReady := h'.busReady.trans h.busReady
  sensor := h'.sensor.trans h.sensor
  agenda := h'.agenda.trans h.agenda
  draws := h'.draws.trans h.draws

theorem busKept_computeStep (h : computeStep s = some t) : BusKept s t := by
  rcases computeStep_cases h with ⟨_, _, -, rfl⟩ | ⟨_, _, -, -, rfl⟩ | ⟨_, -, rfl⟩ | ⟨_, -, rfl⟩ | ⟨_, rfl⟩ <;>
    constructor <;> simp

/-- With no transaction, COMPUTE and the return are the only moves of the phases without bus activity. -/
theorem advance_busless (hb : s.bus = .idle) (hp : s.phase ∈ buslessPhases) (h : advance s = some t) :
    computeStep s = some t ∨ t = exitStep s := by
  have hp : s.phase = .compute ∨ s.phase = .done ∨ s.phase = .idle := by simpa [buslessPhases] using hp
  rcases advance_cases h with h | ⟨-, hw, -⟩
  · rcases hp with hp | hp | hp <;> simp only [seqMicro, hb, phaseStep, hp] at h
    · exact .inl h
    · exact .inr (Option.some.inj h).symm
    · cases h
  · rcases hp with hp | hp | hp <;> simp [State.waiting, hb, hp] at hw

theorem busKept_seqRun (hb : s.bus = .idle) (hp : s.phase ∈ buslessPhases) (n : Nat) :
    BusKept s (seqRun stop n s) := by
  have h : (seqRun stop n s).phase ∈ buslessPhases ∧ BusKept s (seqRun stop n s) := by
    refine seqRun_induct (fun a => a.phase ∈ buslessPhases ∧ BusKept s a) ?_ n ⟨hp, busKept_refl s⟩
    rintro a b ⟨ha, hk⟩ - hs h
    refine ⟨buslessPhases_staysIn a b ha hs h, busKept_trans hk ?_⟩
    rcases advance_busless (hk.bus.trans hb) ha h with h | rfl
    · exact busKept_computeStep h
    · constructor <;> rfl
  exact h.2

end Sys2Proof.Machine
end

section
/-!
The invariant clause by clause, and the moves of the block that keep it: a RESET, a fault, and every micro-step of SEQ under a
configuration whose XBUF holds the calibration block (R9, R33).
-/

namespace Sys2Proof.Machine

variable {s t : State}

/-! ## The clauses -/

/-- A transaction in progress as R133 and R137 build it. -/
theorem frameOk_iff {n : Nat} {f : Frame} :
    frameOk n f = true ↔ f.got.length = f.sent.length ∧ (f.hold = .quiescent → f.todo = []) ∧
      ∀ count, f.kind = .read count → 1 ≤ count ∧ count ≤ n ∧ f.sent.length + f.todo.length = count + 1 := by
  have hq : (f.hold != .quiescent || f.todo == []) = true ↔ (f.hold = .quiescent → f.todo = []) := by
    cases f.hold <;> simp
  cases hk : f.kind <;> simp [-bne_iff_ne, frameOk, hk, and_assoc, ← hq]

theorem busOk_active {f : Frame} (hb : s.bus = .active f) :
    busOk s = true ↔ s.cs = .asserted ∧ frameOk s.cfg.xbufLen f = true := by simp [busOk, hb]

theorem busOk_not_inTransaction (hn : s.inTransaction = false) : busOk s = true ↔ s.cs = .released := by
  unfold State.inTransaction at hn
  unfold busOk
  split <;> simp_all

theorem phaseOk_idle (hp : s.phase = .idle) : phaseOk s = true ↔ s.busy = false ∧ s.state ≠ .measuring := by
  simp [phaseOk, hp]

theorem phaseOk_idRead (hp : s.phase = .idRead) : phaseOk s = true ↔ s.busy = true ∧ s.cmd = 0x01 ∧ s.state = .uninit := by
  simp [phaseOk, hp, and_assoc]

theorem phaseOk_calibrating (hp : s.phase = .calRead ∨ s.phase = .parse) :
    phaseOk s = true ↔ s.busy = true ∧ s.cmd = 0x01 ∧ s.state = .uninit ∧ s.kind ≠ .unknown := by
  rcases hp with hp | hp <;> simp [phaseOk, hp, and_assoc]

theorem phaseOk_measuring (hp : s.phase = .trigger ∨ s.phase = .poll ∨ s.phase = .settle) :
    phaseOk s = true ↔ s.busy = true ∧ isTempRead s.cmd = true ∧ s.state = .measuring := by
  rcases hp with hp | hp | hp <;> simp [phaseOk, hp, and_assoc]

theorem phaseOk_burst (hp : s.phase = .burst) :
    phaseOk s = true ↔ s.busy = true ∧ isTempRead s.cmd = true ∧ (s.state = .measuring ∨ s.state = .ready) := by
  simp [phaseOk, hp, and_assoc]

theorem phaseOk_compute (hp : s.phase = .compute) :
    phaseOk s = true ↔
      s.busy = true ∧ (isTempRead s.cmd = true ∨ s.cmd = 0x11 ∨ s.cmd = 0x21) ∧ s.state = .ready := by
  simp [phaseOk, hp, and_assoc, or_assoc]

theorem phaseOk_done (hp : s.phase = .done) :
    phaseOk s = true ↔ s.busy = true ∧ (s.state = .ready ∨ (s.cmd = 0x01 ∧ s.state = .unsupported)) := by
  simp [phaseOk, hp]

/-- INIT's phases are those of a block that is still UNINIT. -/
theorem uninit_of_phase (h : Inv s) (hp : s.phase = .idRead ∨ s.phase = .calRead ∨ s.phase = .parse) :
    s.state = .uninit := by
  rcases hp with hp | hp
  · exact ((phaseOk_idRead hp).1 h.phase).2.2
  · exact ((phaseOk_calibrating hp).1 h.phase).2.2.1

theorem unreadOk_of_initialized (h : s.state = .ready ∨ s.state = .measuring) : unreadOk s = true := by
  rcases h with h | h <;> simp [unreadOk, h]

theorem kindOk_initialized (h : s.state = .ready ∨ s.state = .measuring) : kindOk s = true ↔ s.kind ≠ .unknown := by
  rcases h with h | h <;> simp [kindOk, h]

/-- COMP_T_FLT's fine temperature has the type FLOAT_TFINE_KIND says (R224). -/
theorem tfineFOk_of_compTFlt {adcT : S32} {t1 : U16} {t2 t3 : S16} {v : F64}
    (h : compTFlt s.cfg.floatTfineKind adcT t1 t2 t3 = .ok (s.tfineF, v)) : tfineFOk s = true := by
  unfold compTFlt tFineOfSum at h
  unfold tfineFOk
  cases hk : s.cfg.floatTfineKind <;> simp only [hk] at h ⊢
  · cases hv : truncS32 (tFltSum adcT t1 t2 t3) <;> simp [hv] at h
    simp [← h.1]
  · simp at h
    simp [← h.1]

/-! ## RESET and faults -/

/-- The invariant holds at the start of a run. -/
theorem inv_initial (p : Params) : Inv (State.initial p) where
  xbuf := List.length_replicate
  bus := rfl
  tfineF := by cases hk : p.floatTfineKind <;> simp [tfineFOk, State.initial, hk, TfineF.zero]
  paired := rfl
  faults := by simp [State.initial]
  phase := rfl
  unread := by simp [unreadOk, State.initial]
  kind := rfl

theorem inv_takeReset (h : Inv s) : Inv s.takeReset := { inv_initial s.cfg with faults := h.faults }

/-- No fault has bit 7 (R39). -/
theorem inv_raise (h : Inv s) (f : FaultBit) : Inv (s.raise f) :=
  { h with
    faults := by
      have hm : (faultMask f).getLsbD 7 = false := by cases f <;> rfl
      rw [raise_faults, BitVec.getLsbD_or, h.faults, hm, Bool.or_self] }

/-! ## The bus -/

theorem setHead_length (a : Byte) (b : List Byte) : (setHead a b).length = b.length := by cases b <;> rfl

/-- A read's captured bytes take the place of as many bytes of XBUF (R33, R138). -/
theorem captured_length {count : Nat} {got xbuf : List Byte} (hg : got.length = count + 1) (hc : count ≤ xbuf.length) :
    (captured count got xbuf).length = xbuf.length := by
  simp [captured, addrPhaseLen, hg, hc]

theorem inv_beginWrite (h : Inv s) (c d : Byte) : Inv (s.beginWrite c d) :=
  { h with bus := (busOk_active (beginWrite_bus s c d)).2 ⟨rfl, frameOk_iff.2 (by simp)⟩ }

theorem inv_beginRead (h : Inv s) (a : Byte) {n : Nat} (h1 : 1 ≤ n) (hn : n ≤ s.cfg.xbufLen) : Inv (s.beginRead a n) :=
  { h with
    xbuf := (setHead_length a s.xbuf).trans h.xbuf
    bus := (busOk_active (beginRead_bus s a n)).2 ⟨rfl, frameOk_iff.2 (by simp [readFrame, h1, hn])⟩ }

theorem inv_finishFrame {f : Frame} (h : Inv s) (hb : s.bus = .active f) (hq : f.hold = .quiescent) :
    Inv (s.finishFrame f) := by
  obtain ⟨-, hf⟩ := (busOk_active hb).1 h.bus
  obtain ⟨hgot, htodo, hread⟩ := frameOk_iff.1 hf
  have hx : (s.finishFrame f).xbuf.length = s.xbuf.length := by
    rw [finishFrame_xbuf]
    split
    · rfl
    · rename_i count hk
      obtain ⟨-, hle, hlen⟩ := hread count hk
      rw [htodo hq] at hlen
      exact captured_length (hgot.trans hlen) (h.xbuf ▸ hle)
  exact { h with xbuf := hx.trans h.xbuf, bus := rfl }

theorem inv_busMicro {f : Frame} (h : Inv s) (hb : s.bus = .active f) (hm : busMicro f s = some t) : Inv t := by
  obtain ⟨hcs, hf⟩ := (busOk_active hb).1 h.bus
  obtain ⟨hgot, -, hread⟩ := frameOk_iff.1 hf
  rcases (busMicro_cases hm).2 with ⟨hq, rfl⟩ | ⟨-, htodo, rfl⟩ | ⟨m, rest, -, htodo, rfl⟩
  · exact inv_finishFrame h hb hq
  · exact { h with
      bus := (busOk_active (f := { f with hold := .quiescent }) rfl).2 ⟨hcs, frameOk_iff.2 ⟨hgot, fun _ => htodo, hread⟩⟩ }
  · have hread' : ∀ count, f.kind = .read count →
        1 ≤ count ∧ count ≤ s.cfg.xbufLen ∧ (f.sent ++ [m]).length + rest.length = count + 1 := by
      intro count hk
      obtain ⟨h1, hle, hlen⟩ := hread count hk
      rw [htodo, List.length_cons] at hlen
      exact ⟨h1, hle, by rw [List.length_append, List.length_singleton]; omega⟩
    exact { h with
      bus := (busOk_active (shiftByte_bus s f m rest)).2 ⟨hcs, frameOk_iff.2 ⟨by simp [hgot], by simp, hread'⟩⟩ }

/-! ## The phases -/

theorem inv_computeStep (h : Inv s) (hp : s.phase = .compute) (hm : computeStep s = some t) : Inv t := by
  obtain ⟨hbusy, -, hst⟩ := (phaseOk_compute hp).1 h.phase
  have hunread : ∀ u : State, u.state = s.state → unreadOk u = true :=
    fun u hu => unreadOk_of_initialized (.inl (hu.trans hst))
  have hdone : ∀ u : State, u.phase = .done → u.busy = s.busy → u.state = s.state → phaseOk u = true :=
    fun u hp hb hu => (phaseOk_done hp).2 ⟨hb.trans hbusy, .inl (hu.trans hst)⟩
  rcases computeStep_cases hm with ⟨tf, v, -, rfl⟩ | ⟨tf, v, -, hv, rfl⟩ | ⟨p, -, rfl⟩ | ⟨p, -, rfl⟩ | ⟨f, rfl⟩
  · exact { h with paired := rfl, phase := hdone _ rfl rfl rfl, unread := hunread _ rfl }
  · exact { h with
      tfineF := tfineFOk_of_compTFlt hv, paired := rfl, phase := hdone _ rfl rfl rfl, unread := hunread _ rfl }
  · exact { h with phase := hdone _ rfl rfl rfl, unread := hunread _ rfl }
  · exact { h with phase := hdone _ rfl rfl rfl, unread := hunread _ rfl }
  · exact inv_raise h f

/-- PARSE ends a successful INIT: the block is READY and knows its device (R153). -/
theorem inv_parseStep (h : Inv s) (hp : s.phase = .parse) : Inv (parseStep s) := by
  obtain ⟨hbusy, -, -, hk⟩ := (phaseOk_calibrating (.inr hp)).1 h.phase
  exact { h with
    phase := (phaseOk_done rfl).2 ⟨hbusy, .inl rfl⟩
    unread := unreadOk_of_initialized (.inl rfl)
    kind := (kindOk_initialized (.inl rfl)).2 hk }

theorem inv_exitStep (h : Inv s) (hp : s.phase = .done) : Inv (exitStep s) := by
  obtain ⟨-, hst⟩ := (phaseOk_done hp).1 h.phase
  have hm : s.state ≠ .measuring := by rcases hst with hst | ⟨-, hst⟩ <;> simp [hst]
  exact { h with phase := (phaseOk_idle rfl).2 ⟨rfl, hm⟩ }

theorem inv_phaseStep (h : Inv s) (hx : 24 ≤ s.cfg.xbufLen) (hm : phaseStep s = some t) : Inv t := by
  unfold phaseStep at hm
  split at hm <;> rename_i hp
  case h_1 => cases hm
  case h_9 => exact inv_computeStep h hp hm
  case h_7 =>
    obtain ⟨hbusy, hcmd, hst⟩ := (phaseOk_measuring (.inr (.inr hp))).1 h.phase
    split at hm
    · obtain rfl := Option.some.inj hm
      exact { h with phase := (phaseOk_burst rfl).2 ⟨hbusy, hcmd, .inl hst⟩ }
    · cases hm
  case h_8 =>
    obtain ⟨hbusy, hcmd, hst⟩ := (phaseOk_burst hp).1 h.phase
    split at hm
    · obtain rfl := Option.some.inj hm
      exact inv_beginRead h _ (by omega) (by omega)
    · rename_i hne
      obtain rfl := Option.some.inj hm
      exact { h with phase := (phaseOk_compute rfl).2 ⟨hbusy, .inl hcmd, hst.resolve_left hne⟩ }
  all_goals obtain rfl := Option.some.inj hm
  · exact inv_beginRead h _ le_rfl (by omega)
  · exact inv_beginRead h _ (by omega) hx
  · exact inv_parseStep h hp
  · exact inv_beginWrite h _ _
  · exact inv_beginRead h _ le_rfl (by omega)
  · exact inv_exitStep h hp

/-- R151 and R152: a recognised device is known from here on, any other leaves the block UNSUPPORTED. -/
theorem inv_idReadDone (h : Inv s) (hcs : s.cs = .released) (hp : s.phase = .idRead) : Inv (idReadDone s) := by
  obtain ⟨hbusy, hcmd, hst⟩ := (phaseOk_idRead hp).1 h.phase
  have hbus : ∀ u : State, u.bus = .idle → u.cs = s.cs → busOk u = true :=
    fun u hb hu => (busOk_not_inTransaction (by simp [State.inTransaction, hb])).2 (hu.trans hcs)
  unfold idReadDone
  split
  · rename_i k hk
    have hknown : k ≠ .unknown := by
      rintro rfl
      unfold identify at hk
      split at hk
      · cases hk
      · split at hk <;> cases hk
    exact { h with
      bus := hbus _ rfl rfl
      phase := (phaseOk_calibrating (.inl rfl)).2 ⟨hbusy, hcmd, hst, hknown⟩
      kind := by simp [kindOk, hst] }
  · exact { h with
      bus := hbus _ rfl rfl
      phase := (phaseOk_done rfl).2 ⟨hbusy, .inr ⟨hcmd, rfl⟩⟩
      unread := by simpa [unreadOk, hst] using h.unread
      kind := rfl }

theorem inv_pollDone (h : Inv s) (hcs : s.cs = .released) (hp : s.phase = .poll) : Inv (pollDone s) := by
  obtain ⟨hbusy, hcmd, hst⟩ := (phaseOk_measuring (.inr (.inl hp))).1 h.phase
  have hbus : busOk { s with bus := .idle } = true := (busOk_not_inTransaction rfl).2 hcs
  unfold pollDone
  split
  · exact { h with
      bus := hbus
      phase := (phaseOk_measuring (.inr (.inr rfl))).2 ⟨hbusy, hcmd, hst⟩
      unread := unreadOk_of_initialized (.inr hst) }
  · exact { h with bus := hbus }

/-- SAMPLE's end: the block is READY again (R160). -/
theorem inv_burstDone (h : Inv s) (hcs : s.cs = .released) (hp : s.phase = .burst) : Inv (burstDone s) := by
  obtain ⟨hbusy, hcmd, hst⟩ := (phaseOk_burst hp).1 h.phase
  exact { h with
    bus := (busOk_not_inTransaction rfl).2 hcs
    phase := (phaseOk_burst (s := burstDone s) hp).2 ⟨hbusy, hcmd, .inr rfl⟩
    unread := unreadOk_of_initialized (.inl rfl)
    kind := (kindOk_initialized (.inl rfl)).2 ((kindOk_initialized hst.symm).1 h.kind) }

theorem inv_afterBus (h : Inv s) (hx : 24 ≤ s.cfg.xbufLen) (hb : s.bus = .done) (hm : afterBus s = some t) : Inv t := by
  have hcs : s.cs = .released := (busOk_not_inTransaction (by simp [State.inTransaction, hb])).1 h.bus
  have hbus : busOk { s with bus := .idle } = true := (busOk_not_inTransaction rfl).2 hcs
  unfold afterBus at hm
  split at hm <;> rename_i hp
  case h_6 => exact inv_phaseStep h hx hm
  all_goals obtain rfl := Option.some.inj hm
  · exact inv_idReadDone h hcs hp
  · exact { h with
      bus := hbus
      phase := (phaseOk_calibrating (.inr rfl)).2 ((phaseOk_calibrating (.inl hp)).1 h.phase) }
  · exact { h with
      bus := hbus
      phase := (phaseOk_measuring (.inr (.inl rfl))).2 ((phaseOk_measuring (.inl hp)).1 h.phase) }
  · exact inv_pollDone h hcs hp
  · exact inv_burstDone h hcs hp

/-- Every move of a run keeps the invariant. -/
theorem inv_advance (h : Inv s) (hx : 24 ≤ s.cfg.xbufLen) (hm : advance s = some t) : Inv t := by
  rcases advance_cases hm with hm | ⟨-, -, ⟨rest, -, rfl⟩ | ⟨b, rest, -, rfl⟩⟩
  · unfold seqMicro at hm
    split at hm <;> rename_i hb
    · exact inv_busMicro h hb hm
    · exact inv_phaseStep h hx hm
    · exact inv_afterBus h hx hb hm
  · exact { h with }
  · exact { h with }

end Sys2Proof.Machine
end

section
/-!
What a step can do (R7, R139, R150, R270): another agent moves, the block is reset, a fault is raised at command entry, or SEQ
runs from where the move has put it.
-/

namespace Sys2Proof.Machine

variable {stop : State → Bool} {s t u : State}

/-- Where SEQ's run in a step starts: `s` itself, or `s` with a command admitted (R150) or a transaction begun (R133, R137). -/
inductive Entered (s : State) : State → Prop
  | goOn : Entered s s
  | init (hb : s.busy = false) (hs : s.state = .uninit) (hn : s.inTransaction = false) :
      Entered s ((s.admitted 0x01).atPhase .idRead)
  | measure {c : Byte} (hc : isTempRead c = true) (hb : s.busy = false) (hs : s.state = .ready)
      (hn : s.inTransaction = false) : Entered s (s.admitted c).startSample
  | pressure {c : Byte} (hc : c = 0x11 ∨ c = 0x21) (hb : s.busy = false) (hs : s.state = .ready)
      (hn : s.inTransaction = false) : Entered s ((s.admitted c).atPhase .compute)
  | write (c d : Byte) (hn : s.inTransaction = false) : Entered s (s.beginWrite c d)
  | read (a : Byte) {n : Nat} (h1 : 1 ≤ n) (hle : n ≤ s.cfg.xbufLen) (hn : s.inTransaction = false) :
      Entered s (s.beginRead a n)

/-- How an instruction of HOST or of the wire answers: a fault at command entry, or a run. -/
def Answered (s t : State) : Prop :=
  (∃ f, t = s.raise f) ∨ ∃ stop n u, Entered s u ∧ t = seqRun stop n u

theorem answered_issue {code : Byte} {isInit : Bool} {start : State → State} (h : issue code isInit start s = .next t)
    (he : s.busy = false → s.state = (if isInit then .uninit else .ready) → s.inTransaction = false →
      Entered s (start (s.admitted code))) : Answered s t := by
  obtain ⟨-, ⟨-, rfl⟩ | ⟨-, -, -, rfl⟩ | ⟨-, -, -, rfl⟩ | ⟨hb, hs, hn, rfl⟩⟩ := issue_next h
  · exact .inl ⟨_, rfl⟩
  · exact .inl ⟨_, rfl⟩
  · exact .inl ⟨_, rfl⟩
  · exact .inr ⟨_, _, _, he hb hs hn, rfl⟩

theorem answered_host {c : Byte} {i : Instr} (hd : decodeHost c = .ok i) (h : exec i s = .next t) : Answered s t := by
  rcases decodeHost_ok hd with rfl | rfl | rfl | rfl | rfl
  · exact answered_issue h .init
  · exact answered_issue h (.measure rfl)
  · exact answered_issue h (.pressure (.inl rfl))
  · exact answered_issue h (.measure rfl)
  · exact answered_issue h (.pressure (.inr rfl))

theorem answered_frame {b : List Byte} {i : Instr} (hd : decodeFrame b = .ok i) (h : exec i s = .next t) :
    Answered s t := by
  rcases decodeFrame_ok hd with ⟨a, n, rfl⟩ | ⟨c, d, rfl⟩
  · obtain ⟨-, h⟩ := whenLive_next h
    split at h
    · rename_i hcount
      obtain ⟨-, hn, rfl⟩ := startTransaction_next h
      exact .inr ⟨_, _, _, .read a hcount.1 hcount.2 hn, rfl⟩
    · cases h
  · obtain ⟨-, hn, rfl⟩ := startTransaction_next h
    exact .inr ⟨_, _, _, .write c d hn, rfl⟩

/-- Everything a step can do. -/
inductive Stepped (s t : State) : Prop
  | others (ht : t = { s.moveTaken with ticks := t.ticks, busReady := t.busReady, quantum := t.quantum })
  | reset (hm : s.upNext = .reset) (ht : t = s.moveTaken.takeReset)
  | raised {f : FaultBit} (ht : t = s.moveTaken.raise f)
  | ran {stop : State → Bool} {n : Nat} {u : State} (he : Entered s.moveTaken u) (ht : t = seqRun stop n u)

theorem stepped_of_answered (h : Answered s.moveTaken t) : Stepped s t := by
  rcases h with ⟨f, rfl⟩ | ⟨stop, n, u, he, rfl⟩
  · exact .raised rfl
  · exact .ran he rfl

theorem stepped_of_step (h : step s = .next t) : s.cfg.wf = true ∧ Stepped s t := by
  obtain ⟨hc, h⟩ := stepUnder_next h
  refine ⟨hc, ?_⟩
  rcases takeMove_next h with ⟨-, -, rfl⟩ | ⟨-, rfl⟩ | ⟨_, -, rfl⟩ | ⟨_, -, rfl⟩ | ⟨hm, -, rfl⟩ | ⟨_, _, -, -, -, rfl⟩ |
    ⟨i, ⟨c, -, hd⟩, -, h⟩ | ⟨i, ⟨b, -, hd⟩, -, -, h⟩
  · exact .ran .goOn rfl
  · exact .others rfl
  · exact .others rfl
  · exact .others rfl
  · exact .reset hm rfl
  · exact .raised rfl
  · exact stepped_of_answered (answered_host hd h)
  · exact stepped_of_answered (answered_frame hd h)

/-- A well-formed configuration has room in XBUF for the calibration block (R9). -/
theorem xbufLen_of_wf {p : Params} (h : p.wf = true) : 24 ≤ p.xbufLen := ((params_wf_iff p).1 h).2.2.2.1

/-! ## The invariant -/

/-- Command entry builds what the first phase of the command says. -/
theorem inv_entered (h : Inv s) (he : Entered s u) : Inv u := by
  cases he with
  | goOn => exact h
  | init hb hs hn =>
    have hcs := (busOk_not_inTransaction hn).1 h.bus
    exact { h with
      bus := (busOk_not_inTransaction rfl).2 hcs
      phase := (phaseOk_idRead rfl).2 ⟨rfl, rfl, hs⟩ }
  | measure hc hb hs hn =>
    have hcs := (busOk_not_inTransaction hn).1 h.bus
    exact { h with
      bus := (busOk_not_inTransaction rfl).2 hcs
      phase := (phaseOk_measuring (.inl rfl)).2 ⟨rfl, hc, rfl⟩
      unread := unreadOk_of_initialized (.inr rfl)
      kind := (kindOk_initialized (.inr rfl)).2 ((kindOk_initialized (.inl hs)).1 h.kind) }
  | pressure hc hb hs hn =>
    have hcs := (busOk_not_inTransaction hn).1 h.bus
    exact { h with
      bus := (busOk_not_inTransaction rfl).2 hcs
      phase := (phaseOk_compute rfl).2 ⟨rfl, .inr hc, hs⟩ }
  | write c d hn => exact inv_beginWrite h c d
  | read a h1 hle hn => exact inv_beginRead h a h1 hle

theorem inv_moveTaken (h : Inv s) : Inv s.moveTaken := { h with }

/-- What every move of a run keeps besides the invariant, the run keeps. -/
theorem seqRun_induct_inv (P : State → Prop) (hx : 24 ≤ s.cfg.xbufLen) (hi : Inv s)
    (step : ∀ a b, P a → Inv a → advance a = some b → P b) (n : Nat) (h : P s) :
    Inv (seqRun stop n s) ∧ P (seqRun stop n s) := by
  have hr := seqRun_induct (stop := stop) (fun a => 24 ≤ a.cfg.xbufLen ∧ Inv a ∧ P a)
    (fun a b ⟨hx, hi, hp⟩ _ _ h =>
      ⟨(moveFrame_advance h).cfg ▸ hx, inv_advance hi hx h, step a b hp hi h⟩) n ⟨hx, hi, h⟩
  exact hr.2

theorem entered_cfg (he : Entered s u) : u.cfg = s.cfg := by cases he <;> rfl

theorem inv_stepped (hc : s.cfg.wf = true) (h : Inv s) (hs : Stepped s t) : Inv t := by
  have hi := inv_moveTaken h
  cases hs with
  | others ht => rw [ht]; exact { hi with }
  | reset _ ht => rw [ht]; exact inv_takeReset hi
  | raised ht => rw [ht]; exact inv_raise hi _
  | @ran stop n u he ht =>
    rw [ht]
    have hx : 24 ≤ u.cfg.xbufLen := entered_cfg he ▸ xbufLen_of_wf hc
    exact (seqRun_induct_inv (fun _ => True) hx (inv_entered hi he) (fun _ _ _ _ _ => trivial) n trivial).1

end Sys2Proof.Machine
end

section
/-!
What a step and a command change: the faults and the records that only grow (R35, R39), each register under its own accessor
(R28 to R32), the driver state's transitions (R20), and the rows of the operation table (R42).
-/

namespace Sys2Proof.Machine

variable {stop : State → Bool} {s t u : State} {S : List Phase}

/-! ## What only grows -/

/-- No fault bit is cleared, and HIST and what HOST has received are extended at the end only. -/
structure Grows (s t : State) : Prop where
  faults : s.faults &&& t.faults = s.faults
  hist : s.hist <+: t.hist
  cfg : t.cfg = s.cfg
  results : s.results <+: t.results

theorem grows_of_eq (hf : t.faults = s.faults) (hh : t.hist = s.hist) (hc : t.cfg = s.cfg) (hr : t.results = s.results) :
    Grows s t :=
  ⟨by simp [hf], by simp [hh], hc, by simp [hr]⟩

theorem grows_trans (h : Grows s t) (h' : Grows t u) : Grows s u where
  faults := by
    rw [← h.faults, BitVec.and_assoc, h'.faults]
  hist := h.hist.trans h'.hist
  cfg := h'.cfg.trans h.cfg
  results := h.results.trans h'.results

theorem and_or_self (a b : BitVec 8) : a &&& (a ||| b) = a := by
  ext i hi
  simp +contextual

theorem grows_raise (s : State) (f : FaultBit) : Grows s (s.raise f) :=
  ⟨and_or_self _ _, List.prefix_rfl, rfl, List.prefix_rfl⟩

theorem grows_of_move (h : MoveFrame s t) : Grows s t where
  faults := by
    rcases h.faults with hf | ⟨-, f, hf⟩ <;> rw [hf]
    · exact BitVec.and_self
    · exact and_or_self _ _
  hist := h.hist
  cfg := h.cfg
  results := by
    rcases h.results with hr | ⟨-, hr⟩ <;> rw [hr]
    exact List.prefix_append _ _

theorem grows_seqRun (n : Nat) : Grows s (seqRun stop n s) :=
  seqRun_induct (Grows s) (fun _ _ hg _ _ h => grows_trans hg (grows_of_move (moveFrame_advance h))) n
    (grows_of_eq rfl rfl rfl rfl)

theorem grows_entered (he : Entered s u) : Grows s u := by cases he <;> exact grows_of_eq rfl rfl rfl rfl

theorem grows_stepped (hs : Stepped s t) : Grows s t := by
  have hm : Grows s s.moveTaken := grows_of_eq rfl rfl rfl rfl
  cases hs with
  | others ht => rw [ht]; exact grows_of_eq rfl rfl rfl rfl
  | reset _ ht => rw [ht]; exact grows_of_eq rfl rfl rfl rfl
  | raised ht => rw [ht]; exact grows_trans hm (grows_raise _ _)
  | ran he ht => rw [ht]; exact grows_trans hm (grows_trans (grows_entered he) (grows_seqRun _))

/-! ## Each register under its own accessor -/

/-- The registers that only COMPUTE writes (R28 to R32). -/
structure ResultsKept (s t : State) : Prop where
  tfineI : t.tfineI = s.tfineI
  tfineF : t.tfineF = s.tfineF
  resTInt : t.resTInt = s.resTInt
  resPInt : t.resPInt = s.resPInt
  resTFlt : t.resTFlt = s.resTFlt
  resPFlt : t.resPFlt = s.resPFlt
  pairedI : t.pairedI = s.pairedI
  pairedF : t.pairedF = s.pairedF

/-- Command entry and the start of a transaction write none of them. -/
theorem resultsKept_entered (he : Entered s.moveTaken u) : ResultsKept s u := by
  cases he <;> constructor <;> rfl

/-- Neither does a run that stays out of COMPUTE. -/
theorem resultsKept_of_run (h : RunFrame S s t) (hS : .compute ∉ S) : ResultsKept s t where
  tfineI := h.tfineI.resolve_right (hS ∘ And.left)
  tfineF := h.tfineF.resolve_right (hS ∘ And.left)
  resTInt := h.resTInt.resolve_right (hS ∘ And.left)
  resPInt := h.resPInt.resolve_right (hS ∘ And.left)
  resTFlt := h.resTFlt.resolve_right (hS ∘ And.left)
  resPFlt := h.resPFlt.resolve_right (hS ∘ And.left)
  pairedI := (h.pairing.resolve_right (by simp [hS])).1
  pairedF := (h.pairing.resolve_right (by simp [hS])).2

/-- R28 to R32: what changes, changes under its accessor. -/
def OwnWrites (s t : State) : Prop :=
  (t.tfineI ≠ s.tfineI ∨ t.resTInt ≠ s.resTInt → t.cmd = 0x10) ∧
  (t.tfineF ≠ s.tfineF ∨ t.resTFlt ≠ s.resTFlt → t.cmd = 0x20) ∧
  (t.resPInt ≠ s.resPInt → t.cmd = 0x11) ∧
  (t.resPFlt ≠ s.resPFlt → t.cmd = 0x21) ∧
  (t.pairedI = true → s.pairedI = false → t.cmd = 0x10 ∧ t.pairedF = false) ∧
  (t.pairedF = true → s.pairedF = false → t.cmd = 0x20 ∧ t.pairedI = false) ∧
  (t.pairedI = false → s.pairedI = true → t.cmd = 0x20) ∧
  (t.pairedF = false → s.pairedF = true → t.cmd = 0x10)

theorem ownWrites_of_run (k : ResultsKept s u) (h : RunFrame S u t) : OwnWrites s t := by
  unfold OwnWrites
  rw [← k.tfineI, ← k.tfineF, ← k.resTInt, ← k.resPInt, ← k.resTFlt, ← k.resPFlt, ← k.pairedI, ← k.pairedF, h.cmd]
  refine ⟨?_, ?_, fun hne => (h.resPInt.resolve_left hne).2, fun hne => (h.resPFlt.resolve_left hne).2, ?_⟩
  · rintro (hne | hne)
    · exact (h.tfineI.resolve_left hne).2
    · exact (h.resTInt.resolve_left hne).2
  · rintro (hne | hne)
    · exact (h.tfineF.resolve_left hne).2
    · exact (h.resTFlt.resolve_left hne).2
  · rcases h.pairing with ⟨hi, hf⟩ | ⟨-, hc, hi, hf⟩ | ⟨-, hc, hf, hi⟩ <;> rw [hi, hf]
    · simp +contextual
    · simp [hc]
    · simp [hc]

theorem ownWrites_of_kept (k : ResultsKept s t) : OwnWrites s t := ownWrites_of_run k (runFrame_refl [] t)

/-- Every run stays in the phases there are. -/
theorem runFrame_allPhases (n : Nat) (s : State) :
    RunFrame (initPhases ++ (samplePhases ++ buslessPhases)) s (seqRun stop n s) :=
  runFrame_seqRun (staysIn_of_closed (by decide)) (by cases s.phase <;> decide) n

theorem ownWrites_stepped (hs : Stepped s t) (hr : s.upNext ≠ .reset) : OwnWrites s t := by
  cases hs with
  | others ht => exact ownWrites_of_kept (by rw [ht]; constructor <;> rfl)
  | reset hm => exact absurd hm hr
  | raised ht => exact ownWrites_of_kept (by rw [ht]; constructor <;> rfl)
  | ran he ht => rw [ht]; exact ownWrites_of_run (resultsKept_entered he) (runFrame_allPhases _ _)

/-! ## CAL once INIT has ended -/

/-- A block that is not UNINIT is in none of INIT's phases. -/
theorem phase_of_initialized (h : Inv s) (hs : s.state ≠ .uninit) : s.phase ∈ samplePhases ++ buslessPhases := by
  have hu := mt (uninit_of_phase h) hs
  cases hp : s.phase <;> simp [hp] at hu <;> decide

theorem entered_initialized (he : Entered s u) (hs : s.state ≠ .uninit) : u.state ≠ .uninit := by
  cases he with
  | init _ hu => exact absurd hu hs
  | measure => exact DriverState.noConfusion
  | goOn | pressure | write | read => exact hs

theorem entered_cal (he : Entered s.moveTaken u) : u.cal = s.cal := by cases he <;> rfl

theorem cal_stepped (h : Inv s) (hs : s.state ≠ .uninit) (hr : s.upNext ≠ .reset) (ht : Stepped s t) : t.cal = s.cal := by
  cases ht with
  | others ht => rw [ht]; rfl
  | reset hm => exact absurd hm hr
  | raised ht => rw [ht]; rfl
  | @ran stop n u he ht =>
    have hp := phase_of_initialized (inv_entered (inv_moveTaken h) he) (entered_initialized he hs)
    have hrun : RunFrame _ u t := ht ▸ runFrame_seqRun accessorPhases_staysIn hp n
    exact (hrun.cal.resolve_right (by decide)).trans (entered_cal he)

/-! ## The driver state -/

/-- The transitions of STATE in a run of SEQ (R20). -/
def RunTransition (a b : DriverState) : Prop :=
  b = a ∨ (a = .uninit ∧ (b = .unsupported ∨ b = .ready)) ∨ (a = .measuring ∧ b = .ready)

theorem runTransition_trans {a b c : DriverState} (h : RunTransition a b) (h' : RunTransition b c) :
    RunTransition a c := by
  rcases h with rfl | ⟨rfl, rfl | rfl⟩ | ⟨rfl, rfl⟩
  · exact h'
  all_goals simp_all [RunTransition]

theorem runTransition_advance (h : Inv s) (hm : advance s = some t) : RunTransition s.state t.state := by
  rcases (moveFrame_advance hm).state with hs | ⟨hp, hs⟩ | ⟨hp | hp, hs⟩
  · exact .inl hs
  · exact .inr (.inl ⟨uninit_of_phase h (.inl hp), .inl hs⟩)
  · exact .inr (.inl ⟨uninit_of_phase h (.inr (.inr hp)), .inr hs⟩)
  · obtain ⟨-, -, hd | hd⟩ := (phaseOk_burst hp).1 h.phase
    · exact .inr (.inr ⟨hd, hs⟩)
    · exact .inl (hs.trans hd.symm)

theorem runTransition_seqRun (hx : 24 ≤ s.cfg.xbufLen) (h : Inv s) (n : Nat) :
    RunTransition s.state (seqRun stop n s).state :=
  (seqRun_induct_inv (fun a => RunTransition s.state a.state) hx h
    (fun _ _ hp hi hm => runTransition_trans hp (runTransition_advance hi hm)) n (.inl rfl)).2

/-- Command entry leaves STATE alone, or goes from READY to MEASURING. -/
theorem entered_state (he : Entered s u) : u.state = s.state ∨ (s.state = .ready ∧ u.state = .measuring) := by
  cases he with
  | measure _ _ hs => exact .inr ⟨hs, rfl⟩
  | goOn | init | pressure | write | read => exact .inl rfl

theorem state_ran (hc : s.cfg.wf = true) (h : Inv s) (he : Entered s.moveTaken u) (n : Nat) :
    RunTransition s.state (seqRun stop n u).state ∨ (s.state = .ready ∧ (seqRun stop n u).state = .measuring) := by
  have hx : 24 ≤ u.cfg.xbufLen := entered_cfg he ▸ xbufLen_of_wf hc
  have hrun := runTransition_seqRun (stop := stop) hx (inv_entered (inv_moveTaken h) he) n
  rcases entered_state he with hu | ⟨hs, hu⟩
  · exact .inl (hu ▸ hrun)
  · rw [hu] at hrun
    rcases hrun with hm | ⟨hm, -⟩ | ⟨-, hr⟩
    · exact .inr ⟨hs, hm⟩
    · cases hm
    · exact .inl (.inl (hr.trans hs.symm))

/-! ## The rows of the operation table (R42) -/

/-- INIT, run through its phases. -/
theorem initFrame_of_run (h : RunFrame initPhases ((s.admitted 0x01).atPhase .idRead) t) :
    t = { s with
      state := t.state, kind := t.kind, busy := t.busy, cal := t.cal, xbuf := t.xbuf, cs := t.cs, hist := t.hist,
      phase := t.phase, cmd := t.cmd, faults := t.faults, bus := t.bus, ticks := t.ticks, busReady := t.busReady,
      sensor := t.sensor, results := t.results, agenda := t.agenda, draws := t.draws } := by
  have hcfg : t.cfg = s.cfg := h.cfg
  have hquantum : t.quantum = s.quantum := h.quantum
  have hturns : t.turns = s.turns := h.turns
  have hop : t.opResult = s.opResult := h.opResult
  have hraw : t.raw = s.raw := h.raw.resolve_right (by decide)
  have htarget : t.settleTarget = s.settleTarget := h.settleTarget.resolve_right (by decide)
  obtain ⟨hti, htf, hri, hpi, hrf, hpf, hI, hF⟩ : ResultsKept s t :=
    { resultsKept_of_run h (by decide) with }
  rw [← hcfg, ← hquantum, ← hturns, ← hop, ← hraw, ← htarget, ← hti, ← htf, ← hri, ← hpi, ← hrf, ← hpf, ← hI, ← hF]

/-- SAMPLE on its own, run through its phases. -/
theorem sampleFrame_of_run (h : RunFrame samplePhases s.startSample t) :
    t = { s with
      state := t.state, raw := t.raw, xbuf := t.xbuf, cs := t.cs, hist := t.hist, phase := t.phase,
      settleTarget := t.settleTarget, bus := t.bus, ticks := t.ticks, busReady := t.busReady,
      sensor := t.sensor, agenda := t.agenda, draws := t.draws } := by
  have hcfg : t.cfg = s.cfg := h.cfg
  have hquantum : t.quantum = s.quantum := h.quantum
  have hturns : t.turns = s.turns := h.turns
  have hop : t.opResult = s.opResult := h.opResult
  have hcmd : t.cmd = s.cmd := h.cmd
  have hkind : t.kind = s.kind := h.kind.resolve_right (by decide)
  have hbusy : t.busy = s.busy := h.busy.resolve_right (by decide)
  have hcal : t.cal = s.cal := h.cal.resolve_right (by decide)
  have hresults : t.results = s.results := h.results.resolve_right (by decide)
  have hfaults : t.faults = s.faults := h.faults.resolve_right (by decide)
  obtain ⟨hti, htf, hri, hpi, hrf, hpf, hI, hF⟩ : ResultsKept s t :=
    { resultsKept_of_run h (by decide) with }
  rw [← hcfg, ← hquantum, ← hturns, ← hop, ← hcmd, ← hkind, ← hbusy, ← hcal, ← hresults, ← hfaults, ← hti, ← htf,
    ← hri, ← hpi, ← hrf, ← hpf, ← hI, ← hF]

/-- What an accessor's run never writes: the parameters, KIND and CAL, and what is the model's own. -/
structure AccessorKept (s t : State) : Prop where
  cfg : t.cfg = s.cfg
  kind : t.kind = s.kind
  cal : t.cal = s.cal
  quantum : t.quantum = s.quantum
  turns : t.turns = s.turns
  opResult : t.opResult = s.opResult

theorem accessorKept_of_run (h : RunFrame S s t) (hk : .idRead ∉ S) (hc : .parse ∉ S) : AccessorKept s t :=
  ⟨h.cfg, h.kind.resolve_right hk, h.cal.resolve_right hc, h.quantum, h.turns, h.opResult⟩

/-- READ_T_INT, run through its phases. -/
theorem readTIntFrame_of_run (h : RunFrame (samplePhases ++ buslessPhases) (s.admitted 0x10).startSample t) :
    t = { s with
      state := t.state, busy := t.busy, raw := t.raw, tfineI := t.tfineI, resTInt := t.resTInt, pairedI := t.pairedI,
      pairedF := t.pairedF, xbuf := t.xbuf, cs := t.cs, hist := t.hist, phase := t.phase, cmd := t.cmd,
      settleTarget := t.settleTarget, faults := t.faults, bus := t.bus, ticks := t.ticks, busReady := t.busReady,
      sensor := t.sensor, results := t.results, agenda := t.agenda, draws := t.draws } := by
  obtain ⟨hcfg, hkind, hcal, hquantum, hturns, hop⟩ : AccessorKept s t :=
    { accessorKept_of_run h (by decide) (by decide) with }
  have htf : t.tfineF = s.tfineF := h.tfineF.resolve_right (by simp)
  have hrf : t.resTFlt = s.resTFlt := h.resTFlt.resolve_right (by simp)
  have hpi : t.resPInt = s.resPInt := h.resPInt.resolve_right (by simp)
  have hpf : t.resPFlt = s.resPFlt := h.resPFlt.resolve_right (by simp)
  rw [← hcfg, ← hkind, ← hcal, ← hquantum, ← hturns, ← hop, ← htf, ← hrf, ← hpi, ← hpf]

/-- READ_T_FLT, run through its phases. -/
theorem readTFltFrame_of_run (h : RunFrame (samplePhases ++ buslessPhases) (s.admitted 0x20).startSample t) :
    t = { s with
      state := t.state, busy := t.busy, raw := t.raw, tfineF := t.tfineF, resTFlt := t.resTFlt, pairedI := t.pairedI,
      pairedF := t.pairedF, xbuf := t.xbuf, cs := t.cs, hist := t.hist, phase := t.phase, cmd := t.cmd,
      settleTarget := t.settleTarget, faults := t.faults, bus := t.bus, ticks := t.ticks, busReady := t.busReady,
      sensor := t.sensor, results := t.results, agenda := t.agenda, draws := t.draws } := by
  obtain ⟨hcfg, hkind, hcal, hquantum, hturns, hop⟩ : AccessorKept s t :=
    { accessorKept_of_run h (by decide) (by decide) with }
  have hti : t.tfineI = s.tfineI := h.tfineI.resolve_right (by simp)
  have hri : t.resTInt = s.resTInt := h.resTInt.resolve_right (by simp)
  have hpi : t.resPInt = s.resPInt := h.resPInt.resolve_right (by simp)
  have hpf : t.resPFlt = s.resPFlt := h.resPFlt.resolve_right (by simp)
  rw [← hcfg, ← hkind, ← hcal, ← hquantum, ← hturns, ← hop, ← hti, ← hri, ← hpi, ← hpf]

/-- A pressure accessor, run from COMPUTE: no bus activity, and of the registers only BUSY, CMD, PHASE, FAULTS and its own
result (R172, R173). -/
theorem pressureFrame_of_run {c : Byte} (hc : c = 0x11 ∨ c = 0x21)
    (h : RunFrame buslessPhases ((s.admitted c).atPhase .compute) t)
    (hb : BusKept ((s.admitted c).atPhase .compute) t) :
    t = { s with
      busy := t.busy, cmd := t.cmd, phase := t.phase, resPInt := t.resPInt, resPFlt := t.resPFlt, faults := t.faults,
      bus := t.bus, results := t.results } := by
  obtain ⟨hcfg, hkind, hcal, hquantum, hturns, hop⟩ : AccessorKept s t :=
    { accessorKept_of_run h (by decide) (by decide) with }
  have hxbuf : t.xbuf = s.xbuf := hb.xbuf
  have hcs : t.cs = s.cs := hb.cs
  have hhist : t.hist = s.hist := hb.hist
  have hticks : t.ticks = s.ticks := hb.ticks
  have hready : t.busReady = s.busReady := hb.busReady
  have hsensor : t.sensor = s.sensor := hb.sensor
  have hagenda : t.agenda = s.agenda := hb.agenda
  have hdraws : t.draws = s.draws := hb.draws
  have hstate : t.state = s.state := h.state.resolve_right (by decide)
  have hraw : t.raw = s.raw := h.raw.resolve_right (by decide)
  have htarget : t.settleTarget = s.settleTarget := h.settleTarget.resolve_right (by decide)
  obtain ⟨hnI, hnF⟩ : c ≠ 0x10 ∧ c ≠ 0x20 := by rcases hc with rfl | rfl <;> decide
  have hti : t.tfineI = s.tfineI := h.tfineI.resolve_right (hnI ∘ And.right)
  have hri : t.resTInt = s.resTInt := h.resTInt.resolve_right (hnI ∘ And.right)
  have htf : t.tfineF = s.tfineF := h.tfineF.resolve_right (hnF ∘ And.right)
  have hrf : t.resTFlt = s.resTFlt := h.resTFlt.resolve_right (hnF ∘ And.right)
  obtain ⟨hI, hF⟩ : t.pairedI = s.pairedI ∧ t.pairedF = s.pairedF :=
    h.pairing.resolve_right (by rintro (⟨-, h, -⟩ | ⟨-, h, -⟩); exacts [hnI h, hnF h])
  rw [← hcfg, ← hkind, ← hcal, ← hquantum, ← hturns, ← hop, ← hxbuf, ← hcs, ← hhist, ← hticks, ← hready, ← hsensor,
    ← hagenda, ← hdraws, ← hstate, ← hraw, ← htarget, ← hti, ← hri, ← htf, ← hrf, ← hI, ← hF]

end Sys2Proof.Machine
end

section
/-! The statements of 10_state.md, settled. -/

namespace Sys2Proof.Machine

variable {s t : State}

/-- A command that command entry refuses changes FAULTS only; one it admits runs. -/
theorem issue_raise_or_run {code : Byte} {isInit : Bool} {start : State → State} (h : issue code isInit start s = .next t) :
    (∃ f, t = s.raise f) ∨ t = (start (s.admitted code)).runSeq := by
  obtain ⟨-, ⟨-, rfl⟩ | ⟨-, -, -, rfl⟩ | ⟨-, -, -, rfl⟩ | ⟨-, -, -, rfl⟩⟩ := issue_next h
  · exact .inl ⟨_, rfl⟩
  · exact .inl ⟨_, rfl⟩
  · exact .inl ⟨_, rfl⟩
  · exact .inr rfl

/-- A pressure accessor's run from COMPUTE. -/
theorem runFrame_pressure (c : Byte) (s : State) :
    RunFrame buslessPhases ((s.admitted c).atPhase .compute) ((s.admitted c).atPhase .compute).runSeq :=
  runFrame_seqRun buslessPhases_staysIn (by rw [atPhase_phase]; decide) _

theorem busKept_pressure (c : Byte) (s : State) :
    BusKept ((s.admitted c).atPhase .compute) ((s.admitted c).atPhase .compute).runSeq :=
  busKept_seqRun rfl (by rw [atPhase_phase]; decide) _

theorem runFrame_temperature (c : Byte) (s : State) :
    RunFrame (samplePhases ++ buslessPhases) (s.admitted c).startSample (s.admitted c).startSample.runSeq :=
  runFrame_seqRun accessorPhases_staysIn (by rw [startSample_phase]; decide) _

/-- Settles O21: of everything a step can do (`stepped_of_step`), each keeps the invariant. -/
theorem stepKeepsInv : Obligations.StepKeepsInv := by
  intro s t hi h
  obtain ⟨hc, hs⟩ := stepped_of_step h
  exact inv_stepped hc hi hs

/-- Settles O30: INIT's run stays in INIT's phases. -/
theorem initFrame : Obligations.InitFrame := by
  intro s t h
  rcases issue_raise_or_run h with ⟨f, rfl⟩ | rfl
  · rfl
  · exact initFrame_of_run (runFrame_seqRun initPhases_staysIn (by rw [atPhase_phase]; decide) _)

/-- Settles O34: SAMPLE stops at BURST, and a temperature accessor enters none of INIT's phases. -/
theorem measuringFrame : Obligations.MeasuringFrame := by
  refine ⟨fun s t h => ?_, fun s t h => ?_, fun s t h => ?_⟩
  · obtain ⟨-, h⟩ := whenLive_next h
    split at h
    · cases h
    · split at h
      · obtain rfl := Host.Outcome.next.inj h
        exact sampleFrame_of_run (runFrame_seqRun samplePhases_staysIn (by rw [startSample_phase]; decide) _)
      · cases h
  · rcases issue_raise_or_run h with ⟨f, rfl⟩ | rfl
    · rfl
    · exact readTIntFrame_of_run (runFrame_temperature 0x10 s)
  · rcases issue_raise_or_run h with ⟨f, rfl⟩ | rfl
    · rfl
    · exact readTFltFrame_of_run (runFrame_temperature 0x20 s)

/-- Settles O39: from COMPUTE on there is no bus activity, and each accessor writes its own result only. -/
theorem readPressureFrame : Obligations.ReadPressureFrame := by
  refine ⟨fun s t h => ?_, fun s t h => ?_⟩
  · rcases issue_raise_or_run h with ⟨f, rfl⟩ | ht
    · rfl
    · have hr : RunFrame buslessPhases ((s.admitted 0x11).atPhase .compute) t := ht ▸ runFrame_pressure 0x11 s
      have hpf : t.resPFlt = s.resPFlt := hr.resPFlt.resolve_right (by simp)
      have hframe := pressureFrame_of_run (.inl rfl) hr (ht ▸ busKept_pressure 0x11 s)
      rwa [hpf] at hframe
  · rcases issue_raise_or_run h with ⟨f, rfl⟩ | ht
    · rfl
    · have hr : RunFrame buslessPhases ((s.admitted 0x21).atPhase .compute) t := ht ▸ runFrame_pressure 0x21 s
      have hpi : t.resPInt = s.resPInt := hr.resPInt.resolve_right (by simp)
      have hframe := pressureFrame_of_run (.inr rfl) hr (ht ▸ busKept_pressure 0x21 s)
      rwa [hpi] at hframe

/-- Settles O55: every move of a run only adds fault bits, HIST entries and results, and so do RESET and command entry. -/
theorem faultsStickHistoryGrows : Obligations.FaultsStickHistoryGrows := by
  intro s t h
  obtain ⟨hfaults, hhist, hcfg, hresults⟩ := grows_stepped (stepped_of_step h).2
  exact ⟨hfaults, hhist, hcfg, hresults⟩

/-- Settles O56: CAL is written at PARSE only, and a block that is not UNINIT does not come to INIT's phases. -/
theorem calibrationIsImmutable : Obligations.CalibrationIsImmutable :=
  fun _ _ hi hs hr h => cal_stepped hi hs hr (stepped_of_step h).2

/-- Settles O57: each is written at COMPUTE only, by the command in progress, and a run keeps CMD. -/
theorem onlyItsAccessorWrites : Obligations.OnlyItsAccessorWrites :=
  fun _ _ hr h => ownWrites_stepped (stepped_of_step h).2 hr

/-- Settles O58: a run's transitions compose to those of R20, and command entry adds READY to MEASURING. -/
theorem driverStateTransitions : Obligations.DriverStateTransitions := by
  intro s t hi h
  obtain ⟨hc, hs⟩ := stepped_of_step h
  cases hs with
  | others ht => exact .inr (.inl (by rw [ht]; rfl))
  | reset hm ht => exact .inl ⟨hm, by rw [ht]; rfl⟩
  | raised ht => exact .inr (.inl (by rw [ht]; rfl))
  | @ran stop n u he ht =>
    rw [ht]
    rcases state_ran (stop := stop) hc hi he n with (hs | ⟨hu, hs⟩ | ⟨hm, hs⟩) | ⟨hr, hs⟩
    · exact .inr (.inl hs)
    · exact .inr (.inr (.inl ⟨hu, hs⟩))
    · exact .inr (.inr (.inr (.inr ⟨hm, hs⟩)))
    · exact .inr (.inr (.inr (.inl ⟨hr, hs⟩)))

/-- A RESET step, R270. -/
theorem stepUnder_reset {sched : Nat → Turn} (hc : s.cfg.wf = true) (hf : s.faults = 0) (hn : s.nextMove sched = .reset) :
    stepUnder sched s = .next s.moveTaken.takeReset := by
  rw [stepUnder_of_wf hc, hn]
  exact whenLive_of hf

/-- After a RESET SEQ has nothing to do (R270, R273). -/
theorem runSeq_takeReset (s : State) : s.takeReset.runSeq = s.takeReset := seqRun_stuck _ (advance_idle rfl rfl)

/-- Settles O18: the step is `takeReset`, whose registers are R51's, and an idle block stays as it is. -/
theorem resetStepResets : Obligations.ResetStepResets := by
  intro s hc hf hn
  refine ⟨s.moveTaken.takeReset, stepUnder_reset hc hf hn, ?_⟩
  have htf : s.moveTaken.takeReset.tfineF = TfineF.zero s.cfg.floatTfineKind := rfl
  rw [htf, runSeq_takeReset]
  cases s.cfg.floatTfineKind <;> simp [State.inTransaction, TfineF.zero]

/-- Settles O20. -/
theorem initialStateHasInv : Obligations.InitialStateHasInv := inv_initial

/-- Settles O26: the two tests of `identify`, and no third. -/
theorem identifiesTwoCodes : Obligations.IdentifiesTwoCodes := by
  intro id
  unfold identify
  split
  · rename_i h; subst h; decide
  · split
    · rename_i h; subst h; decide
    · rename_i hA hB
      exact ⟨iff_of_false nofun hA, iff_of_false nofun hB, iff_of_true rfl ⟨hA, hB⟩⟩

end Sys2Proof.Machine
end

section
/-!
Decoding and encoding as one relation (R91 to R99): a word decodes to an instruction exactly where the instruction is well formed,
is as the wire carries it, and is encoded by that word. Stated for the host code, for the frame, and for both.
-/

namespace Sys2Proof

/-- A write's first byte has bit 7 = 0 (R97). -/
@[simp] theorem msb_writeHeader (c : Byte) : (writeHeader c).msb = false := by
  have h7F : (0x7F : Byte).msb = false := by decide
  rw [writeHeader, BitVec.msb_and, h7F, Bool.and_false]

theorem writeHeader_of_msb_false {c : Byte} (h : c.msb = false) : writeHeader c = c := by
  have hlt : c.toNat < 2 ^ 7 := by
    have := BitVec.msb_eq_false_iff_two_mul_lt.1 h
    omega
  apply BitVec.eq_of_toNat_eq
  rw [writeHeader, BitVec.toNat_and]
  exact Nat.and_two_pow_sub_one_of_lt_two_pow hlt

theorem decodeFrame_write {c : Byte} (d : Byte) (h : c.msb = false) : decodeFrame [c, d] = .ok (.spiWrite c d) := by
  simp [decodeFrame, h]

theorem decodeFrame_read {a : Byte} {n : Nat} (ha : a.msb = true) (hn : 1 ≤ n) :
    decodeFrame (readFrame a n) = .ok (.spiRead a n) := by
  have hn0 : n ≠ 0 := by omega
  simp [decodeFrame, readFrame, ha, hn0]

/-- Everything a frame can decode to: a write of two bytes, or a read whose padding is zero. -/
theorem decodeFrame_ok_cases {b : List Byte} {i : Instr} (h : decodeFrame b = .ok i) :
    (∃ c d, c.msb = false ∧ b = [c, d] ∧ i = .spiWrite c d) ∨
    (∃ a n, a.msb = true ∧ 1 ≤ n ∧ b = readFrame a n ∧ i = .spiRead a n) := by
  unfold decodeFrame at h
  split at h
  · cases h
  rename_i head rest
  split at h
  · rename_i hm
    split at h
    · cases h
    rename_i hne
    split at h
    · rename_i hz
      cases h
      have hrest : rest = List.replicate rest.length 0 := List.eq_replicate_iff.2 ⟨rfl, by simpa using hz⟩
      exact .inr ⟨head, rest.length, hm, List.length_pos_iff.2 hne, congrArg (head :: ·) hrest, rfl⟩
    · cases h
  · rename_i hm
    split at h
    · cases h
      exact .inl ⟨_, _, by simpa using hm, rfl, rfl⟩
    · cases h

/-- R91, R93: the decoder of host codes is the table of R91 read backwards. -/
theorem decodeHost_eq_ok_iff {c : Byte} {i : Instr} : decodeHost c = .ok i ↔ encode i = some (.command c) := by
  constructor
  · intro h
    unfold decodeHost at h
    repeat' split at h
    all_goals cases h
    all_goals subst c; rfl
  · intro h
    cases i <;> cases h <;> rfl

/-- R96 to R99. -/
theorem decodeFrame_eq_ok_iff {b : List Byte} {i : Instr} :
    decodeFrame b = .ok i ↔ i.wf = true ∧ i.onWire = i ∧ encode i = some (.frame b) := by
  constructor
  · intro h
    rcases decodeFrame_ok_cases h with ⟨c, d, hc, rfl, rfl⟩ | ⟨a, n, ha, hn, rfl, rfl⟩
    · have hw : writeHeader c = c := writeHeader_of_msb_false hc
      exact ⟨rfl, by simp [Instr.onWire, hw], by simp [encode, writeFrame, hw]⟩
    · exact ⟨by simp [Instr.wf, ha, hn], rfl, rfl⟩
  · rintro ⟨hwf, hw, he⟩
    cases i with
    | spiWrite c d =>
      cases he
      have hc : writeHeader c = c := (Instr.spiWrite.inj hw).1
      rw [writeFrame, decodeFrame_write d (msb_writeHeader c), hc]
    | spiRead a n =>
      cases he
      obtain ⟨ha, hn⟩ : a.msb = true ∧ 1 ≤ n := by simpa [Instr.wf] using hwf
      exact decodeFrame_read ha hn
    | _ => cases he

/-- An instruction that the command port carries is a host command: it has no operands to be ill formed or to lose. -/
theorem wf_onWire_of_encode_command {c : Byte} {i : Instr} (h : encode i = some (.command c)) :
    i.wf = true ∧ i.onWire = i := by
  cases i <;> cases h <;> exact ⟨rfl, rfl⟩

/-- A word decodes to `i` exactly where `i` is well formed, as the wire carries it, and encoded by that word. -/
theorem decodeWire_eq_ok_iff {w : Wire} {i : Instr} :
    decodeWire w = .ok i ↔ i.wf = true ∧ i.onWire = i ∧ encode i = some w := by
  cases w with
  | command c =>
    refine decodeHost_eq_ok_iff.trans ⟨fun h => ?_, fun ⟨_, _, h⟩ => h⟩
    obtain ⟨hwf, hw⟩ := wf_onWire_of_encode_command h
    exact ⟨hwf, hw, h⟩
  | frame b => exact decodeFrame_eq_ok_iff

theorem decodeWire_of_encode {w : Wire} {i : Instr} (hwf : i.wf = true) (hw : i.onWire = i) (he : encode i = some w) :
    decodeWire w = .ok i := decodeWire_eq_ok_iff.2 ⟨hwf, hw, he⟩

/-- The family OnWire, for every instruction at once. -/
theorem onWire_statement (i : Instr) : Laws.OnWire.Statement i := by
  cases i with
  | spiWrite c d => exact Laws.OnWire.spiWrite c d
  | _ => exact ⟨rfl, rfl, rfl⟩

/-- R93: a code is illegal exactly where it is none of R91's. -/
theorem decodeHost_eq_illegal_iff {c : Byte} : decodeHost c = .error (.illegalCommand c) ↔
    c ≠ 0x01 ∧ c ≠ 0x10 ∧ c ≠ 0x11 ∧ c ≠ 0x20 ∧ c ≠ 0x21 := by
  constructor
  · intro h
    refine ⟨?_, ?_, ?_, ?_, ?_⟩ <;> rintro rfl <;> cases h
  · rintro ⟨h₁, h₂, h₃, h₄, h₅⟩
    rw [decodeHost, if_neg h₁, if_neg h₂, if_neg h₃, if_neg h₄, if_neg h₅]

theorem decodeTableWord_eq_some_iff {nbits w : Nat} {i : Instr} :
    decodeTableWord nbits w = some i ↔ decodeWire (tableWire nbits w) = .ok i := by
  unfold decodeTableWord
  cases decodeWire (tableWire nbits w) <;> simp

end Sys2Proof
end

section
/-! The statements of 30_encoding.md, settled. -/

namespace Sys2Proof.Machine

variable {s : State}

/-- The move that brings a word runs what the word decodes to, between host commands (R150). -/
theorem takeMove_wireMove {run : Instr → State → Answer} {goOn : State → State} {w : Wire} {i : Instr} (hf : s.faults = 0)
    (hb : s.busy = false) (hd : decodeWire w = .ok i) : takeMove run goOn (wireMove w) s = run i s := by
  cases w with
  | command c =>
    have hd : decodeHost c = .ok i := hd
    simp [wireMove, takeMove, whenLive_of hf, hd]
  | frame b =>
    have hd : decodeFrame b = .ok i := hd
    simp [wireMove, takeMove, whenLive_of hf, hd, hb]

/-- Settles O3: the words of `i` are those of what the wire carries of it, which is carried whole. -/
theorem decodeInvertsEncode : Obligations.DecodeInvertsEncode := by
  intro i w hwf he
  obtain ⟨henc, hwf', hwire⟩ := onWire_statement i
  exact decodeWire_of_encode (hwf'.trans hwf) hwire (henc.trans he)

/-- Settles O4: one direction of `decodeWire_eq_ok_iff`. -/
theorem encodeInvertsDecode : Obligations.EncodeInvertsDecode := fun _ _ => decodeWire_eq_ok_iff.1

/-- Settles O1: R91's table read backwards, and what is none of its codes. -/
theorem hostCodesDecode : Obligations.HostCodesDecode := by
  intro c
  refine ⟨?_, ?_, ?_, ?_, ?_, decodeHost_eq_illegal_iff⟩ <;> rw [decodeHost_eq_ok_iff] <;> simp [encode, eq_comm]

/-- Settles O2: the decodable words are encodings, the three others are refused by the decoder's branches. -/
theorem specWordsDecode : Obligations.SpecWordsDecode :=
  ⟨decodeWire_of_encode rfl rfl rfl, decodeWire_of_encode rfl rfl rfl, decodeWire_of_encode rfl rfl rfl,
    decodeHost_eq_illegal_iff.2 (by decide), decodeWire_of_encode rfl rfl rfl, decodeWire_of_encode rfl rfl rfl,
    decodeWire_of_encode rfl rfl rfl, rfl, rfl⟩

/-- Settles O6: the placed word's move is the first of the agenda, and taking it leaves the state as it was. -/
theorem stepRunsPlacedWord : Obligations.StepRunsPlacedWord := by
  intro s nbits w i hc hf hb hd
  have hstep : step (s.withFetchWord nbits w) = takeMove exec State.runSeq (wireMove (tableWire nbits w)) s :=
    step_of_cons hc rfl
  rw [hstep, takeMove_wireMove hf hb (decodeTableWord_eq_some_iff.1 hd)]

end Sys2Proof.Machine
end

section
/-!
The transport as instructions (40_transport.md): what SPI_WRITE and SPI_READ answer, what a read leaves in XBUF, and what their run
keeps until it ends or is held up; then the runs in which nothing of the block moves (R141, R163), and a turn of SEQ between other
agents' moves (R139).
-/

namespace Sys2Proof.Machine

variable {s t u : State} {kind : FrameKind} {f : Frame} {a : Byte} {n : Nat} {sched : Nat → Turn}

/-! ## What the operations answer -/

/-- SPI_READ with a count R137 allows starts a transaction. -/
theorem exec_spiRead_of_count (hf : s.faults = 0) (h1 : 1 ≤ n) (hn : n ≤ s.cfg.xbufLen) :
    exec (.spiRead a n) s = startTransaction (fun t => t.beginRead a n) s :=
  (whenLive_of hf).trans (if_pos ⟨h1, hn⟩)

/-- SPI_READ with any other count is refused by name. -/
theorem exec_spiRead_of_not_count (hf : s.faults = 0) (hn : ¬(1 ≤ n ∧ n ≤ s.cfg.xbufLen)) :
    exec (.spiRead a n) s = .refused .readCount :=
  (whenLive_of hf).trans (if_neg hn)

/-- Where SPI_READ answers, its count is one R137 allows, and its transaction has run. -/
theorem exec_spiRead_next (h : exec (.spiRead a n) s = .next t) : 1 ≤ n ∧ t = (s.beginRead a n).runBus := by
  obtain ⟨-, h⟩ := whenLive_next h
  split at h
  · rename_i hn
    obtain ⟨-, -, ht⟩ := startTransaction_next h
    exact ⟨hn.1, ht⟩
  · cases h

/-- On a live bus SPI_WRITE does what its pseudocode says (R133). -/
theorem exec_spiWrite_live (c d : Byte) (hf : s.faults = 0) (ht : s.inTransaction = false) (hb : BusLive s)
    (hq : 4 ≤ s.quantum) : exec (.spiWrite c d) s = .next (s.writeAll c d) := by
  have hreach := reaches_write (stop := fun u => !u.inTransaction) c d s hb (quiescent_of hf) (by simp)
  exact (startTransaction_of hf ht).trans (congrArg _ (runBus_of_reaches hreach hq rfl))

/-- On a live bus SPI_READ does what its pseudocode says (R137). -/
theorem exec_spiRead_live (hf : s.faults = 0) (ht : s.inTransaction = false) (hb : BusLive s) (h1 : 1 ≤ n)
    (hn : n ≤ s.cfg.xbufLen) (hq : n + 3 ≤ s.quantum) : exec (.spiRead a n) s = .next (s.readAll a n) := by
  have hreach := reaches_read (stop := fun u => !u.inTransaction) a n s hb (quiescent_of hf) (by simp)
  rw [exec_spiRead_of_count hf h1 hn, startTransaction_of hf ht, runBus_of_reaches hreach hq rfl]

/-! ## What a read leaves in XBUF -/

theorem getElem?_eq_of_drop_eq {α : Type} {x y : List α} {i : Nat} (h : x.drop n = y.drop n) (hi : n ≤ i) :
    x[i]? = y[i]? := by
  obtain ⟨j, rfl⟩ := Nat.exists_eq_add_of_le hi
  rw [← List.getElem?_drop, h, List.getElem?_drop]

theorem setHead_drop (x : List Byte) (h1 : 1 ≤ n) : (setHead a x).drop n = x.drop n := by
  obtain ⟨m, rfl⟩ := Nat.exists_eq_add_of_le' h1
  cases x <;> rfl

/-- R33: the bytes from `count` on keep their values. -/
theorem captured_drop {got : List Byte} (x : List Byte) (hg : got.length = n + 1) :
    (captured n got x).drop n = x.drop n :=
  List.drop_left' (by simp [addrPhaseLen, hg])

/-- R138: the byte at `i` of the head is the one shifted in at `i + 1`. -/
theorem captured_getElem? {got : List Byte} (x : List Byte) (hg : got.length = n + 1) {i : Nat} (hi : i < n) :
    (captured n got x)[i]? = got[i + 1]? := by
  have hlen : i < ((got.drop addrPhaseLen).take n).length := by simpa [addrPhaseLen, hg] using hi
  rw [captured, List.getElem?_append_left hlen, List.getElem?_take_of_lt hi, List.getElem?_drop, addrPhaseLen, Nat.add_comm]

theorem misoOf_length (s : State) (mosi : List Byte) : (misoOf s mosi).length = mosi.length := by simp [misoOf]

theorem readFrame_length (a : Byte) (n : Nat) : (readFrame a n).length = n + 1 := by simp [readFrame]

/-! ## A transaction until it ends, or is held up -/

/-- How many bytes at the head of XBUF a transaction overwrites: none, or those a read captures (R134, R138). -/
def FrameKind.captures : FrameKind → Nat
  | .write => 0
  | .read count => count

/-- A frame in progress of the given kind: a read is to shift in one byte more than it captures, and SEQ is at the last hold only
when all bytes are out. -/
structure FrameOf (kind : FrameKind) (f : Frame) : Prop where
  kind_eq : f.kind = kind
  read_length : ∀ count, kind = .read count → f.got.length + f.todo.length = count + 1
  todo_nil : f.hold = .quiescent → f.todo = []

/-- All registers but XBUF, CS and HIST, and all that is not the transaction's or the other agents', as they were. -/
def TransportKept (s t : State) : Prop :=
  t = { s with
    xbuf := t.xbuf, cs := t.cs, hist := t.hist, bus := t.bus, ticks := t.ticks, busReady := t.busReady,
    sensor := t.sensor, agenda := t.agenda, draws := t.draws }

/-- Where a transaction begun in `s` has come to. -/
structure Transported (kind : FrameKind) (s t : State) : Prop where
  kept : TransportKept s t
  xbuf : t.xbuf.drop kind.captures = s.xbuf.drop kind.captures
  frame : ∀ f, t.bus = .active f → FrameOf kind f

theorem transportKept_trans (h : TransportKept s t) (h' : TransportKept t u) : TransportKept s u :=
  Eq.trans h' (by rw [h])

theorem transported_beginWrite (c d : Byte) (s : State) : Transported .write s (s.beginWrite c d) where
  kept := rfl
  xbuf := rfl
  frame := by
    intro f hf
    cases hf
    exact ⟨rfl, nofun, nofun⟩

theorem transported_beginRead (s : State) (h1 : 1 ≤ n) : Transported (.read n) s (s.beginRead a n) where
  kept := rfl
  xbuf := setHead_drop s.xbuf h1
  frame := by
    intro f hf
    cases hf
    refine ⟨rfl, fun count hk => ?_, nofun⟩
    cases hk
    simp [readFrame_length]

theorem finishFrame_xbuf_drop (s : State) (hf : FrameOf kind f) (hq : f.hold = .quiescent) :
    (s.finishFrame f).xbuf.drop kind.captures = s.xbuf.drop kind.captures := by
  obtain ⟨hkind, hlength, htodo⟩ := hf
  rw [finishFrame_xbuf, hkind]
  cases kind with
  | write => rfl
  | read count => exact captured_drop s.xbuf (by simpa [htodo hq, FrameKind.captures] using hlength count rfl)

/-- A micro-step inside a transaction: it ends, SEQ comes to the last hold, or a byte goes out and one comes in. -/
theorem transported_busMicro (hf : FrameOf kind f) (h : busMicro f s = some t) : Transported kind s t := by
  rcases (busMicro_cases h).2 with ⟨hq, rfl⟩ | ⟨-, htodo, rfl⟩ | ⟨m, rest, -, htodo, rfl⟩
  · exact ⟨rfl, finishFrame_xbuf_drop s hf hq, nofun⟩
  · refine ⟨rfl, rfl, fun g hg => ?_⟩
    cases hg
    exact ⟨hf.kind_eq, hf.read_length, fun _ => htodo⟩
  · refine ⟨rfl, rfl, fun g hg => ?_⟩
    cases hg
    refine ⟨hf.kind_eq, fun count hk => ?_, nofun⟩
    have hlength := hf.read_length count hk
    rw [htodo, List.length_cons] at hlength
    change (f.got ++ [s.misoByte f]).length + rest.length = count + 1
    rw [List.length_append, List.length_singleton]
    omega

/-- A move while a transaction is in progress is one of its micro-steps, or TICK's or the bus hardware's. -/
theorem transported_advance (h : ∀ f, s.bus = .active f → FrameOf kind f) (hn : s.inTransaction = true)
    (hm : advance s = some t) : Transported kind s t := by
  rcases advance_cases hm with hm | ⟨-, -, ⟨rest, -, rfl⟩ | ⟨b, rest, -, rfl⟩⟩
  · unfold State.inTransaction at hn
    split at hn
    · rename_i f hb
      have hmicro : busMicro f s = some t := by simpa only [seqMicro, hb] using hm
      exact transported_busMicro (h f hb) hmicro
    · cases hn
  · exact ⟨rfl, rfl, h⟩
  · exact ⟨rfl, rfl, h⟩

theorem transported_trans (h : Transported kind s t) (h' : Transported kind t u) : Transported kind s u :=
  ⟨transportKept_trans h.kept h'.kept, h'.xbuf.trans h.xbuf, h'.frame⟩

theorem transported_runBus (h : Transported kind s t) : Transported kind s t.runBus := by
  refine seqRun_induct (Transported kind s) (fun v w hv _ hstop hm => ?_) _ h
  exact transported_trans hv (transported_advance hv.frame (by simpa using hstop) hm)

/-! ## Runs in which nothing of the block moves -/

/-- A transaction whose hold is not lifted does not move (R141). -/
theorem advance_held (hn : s.inTransaction = true) (hr : s.busReady = false) (ha : s.agenda = []) : advance s = none := by
  unfold State.inTransaction at hn
  split at hn
  · rename_i f hb
    simp [advance, seqMicro, busMicro, hb, hr, State.waiting, envMove, ha]
  · cases hn

/-- A SETTLE whose target is not reached does not move (R163). -/
theorem advance_settling (hp : s.phase = .settle) (hb : s.bus = .idle) (ht : s.ticks < s.settleTarget)
    (ha : s.agenda = []) : advance s = none := by
  have hlt : ¬ s.settleTarget ≤ s.ticks := by omega
  simp [advance, seqMicro, phaseStep, hb, hp, hlt, State.waiting, envMove, ha]

/-- A turn of SEQ, of TICK or of the bus hardware that lifts nothing, while a transaction is held (R141). -/
theorem stepUnder_held (hc : s.cfg.wf = true) (hf : s.faults = 0) (ha : s.agenda = []) (hn : s.inTransaction = true)
    (hr : s.busReady = false) (hs : ∀ i, sched i = .seq ∨ sched i = .tick ∨ sched i = .bus false) :
    ∃ ticks, stepUnder sched s = .next { s with ticks := ticks, turns := s.turns + 1 } := by
  have hnext := nextMove_of_nil (sched := sched) ha
  have htaken := moveTaken_of_nil ha
  rcases hs s.turns with h | h | h <;> rw [h] at hnext
  · have hstuck : advance s.moveTaken = none := by
      rw [htaken]
      exact advance_held hn hr ha
    exact ⟨s.ticks, by rw [stepUnder_stuck hc hf hnext hstuck, htaken]⟩
  · exact ⟨s.ticks + 1, by rw [stepUnder_tick hc hnext, htaken]; rfl⟩
  · exact ⟨s.ticks, by rw [stepUnder_bus hc hnext, htaken, ← hr]⟩

/-- A turn of SEQ or of the bus hardware while SETTLE holds (R163). -/
theorem stepUnder_settling (hc : s.cfg.wf = true) (hf : s.faults = 0) (ha : s.agenda = []) (hp : s.phase = .settle)
    (hb : s.bus = .idle) (ht : s.ticks < s.settleTarget) (hs : ∀ i, sched i = .seq ∨ ∃ b, sched i = .bus b) :
    ∃ ready, stepUnder sched s = .next { s with busReady := ready, turns := s.turns + 1 } := by
  have hnext := nextMove_of_nil (sched := sched) ha
  have htaken := moveTaken_of_nil ha
  rcases hs s.turns with h | ⟨b, h⟩ <;> rw [h] at hnext
  · have hstuck : advance s.moveTaken = none := by
      rw [htaken]
      exact advance_settling hp hb ht ha
    exact ⟨s.busReady, by rw [stepUnder_stuck hc hf hnext hstuck, htaken]⟩
  · exact ⟨b, by rw [stepUnder_bus hc hnext, htaken]⟩

/-- R141: a hold that is never lifted lasts for ever. -/
theorem runUnder_held (n : Nat) (hc : s.cfg.wf = true) (hf : s.faults = 0) (ha : s.agenda = [])
    (hn : s.inTransaction = true) (hr : s.busReady = false)
    (hs : ∀ i, sched i = .seq ∨ sched i = .tick ∨ sched i = .bus false) :
    ∃ ticks, runUnder sched n s = some { s with ticks := ticks, turns := s.turns + n } := by
  induction n generalizing s with
  | zero => exact ⟨s.ticks, rfl⟩
  | succ n ih =>
    obtain ⟨ticks, hstep⟩ := stepUnder_held hc hf ha hn hr hs
    obtain ⟨ticks', hrun⟩ := ih (s := { s with ticks := ticks, turns := s.turns + 1 }) hc hf ha hn hr
    exact ⟨ticks', by rw [runUnder_succ n hstep, hrun]; simp [Nat.add_assoc, Nat.add_comm 1]⟩

/-- R163, R281: a SETTLE without TICK steps lasts for ever. -/
theorem runUnder_settling (n : Nat) (hc : s.cfg.wf = true) (hf : s.faults = 0) (ha : s.agenda = [])
    (hp : s.phase = .settle) (hb : s.bus = .idle) (ht : s.ticks < s.settleTarget)
    (hs : ∀ i, sched i = .seq ∨ ∃ b, sched i = .bus b) :
    ∃ ready, runUnder sched n s = some { s with busReady := ready, turns := s.turns + n } := by
  induction n generalizing s with
  | zero => exact ⟨s.busReady, rfl⟩
  | succ n ih =>
    obtain ⟨ready, hstep⟩ := stepUnder_settling hc hf ha hp hb ht hs
    obtain ⟨ready', hrun⟩ := ih (s := { s with busReady := ready, turns := s.turns + 1 }) hc hf ha hp hb ht
    exact ⟨ready', by rw [runUnder_succ n hstep, hrun]; simp [Nat.add_assoc, Nat.add_comm 1]⟩

/-! ## A turn of SEQ between other agents' moves -/

/-- A micro-step leaves the configuration and the quantum alone. -/
theorem seqMicro_cfg_quantum (h : seqMicro s = some t) : t.cfg = s.cfg ∧ t.quantum = s.quantum := by
  have hframe := moveFrame_advance (advance_of_micro h)
  exact ⟨hframe.cfg, hframe.quantum⟩

/-- A turn of SEQ that stands on the agenda and is one micro-step. -/
theorem runUnder_micro {rest : List Move} (hc : s.cfg.wf = true) (hf : s.faults = 0) (hq : s.quantum = 1)
    (ha : s.agenda = .seq :: rest) (h : seqMicro s.moveTaken = some t) : runUnder sched 1 s = some t :=
  runUnder_succ 0 (stepUnder_micro hc hf (nextMove_of_cons ha) hq h)

end Sys2Proof.Machine
end

section
/-! The statements of 40_transport.md, settled. -/

namespace Sys2Proof.Machine

/-- Settles O22: the run ends in `writeAll`, which is the state written out with the two bytes of `writeFrame`. -/
theorem spiWriteCompletes : Obligations.SpiWriteCompletes :=
  fun c d _ hf ht hb hq => ⟨exec_spiWrite_live c d hf ht hb hq, rfl⟩

/-- Settles O23: a count R137 allows runs to `readAll`, and any other is outside the check. -/
theorem spiReadCompletes : Obligations.SpiReadCompletes := by
  intro a n s hf
  refine ⟨fun ht hb h1 hn hq => ⟨exec_spiRead_live hf ht hb h1 hn hq, rfl, rfl⟩, fun hcount => ?_⟩
  exact exec_spiRead_of_not_count hf (by omega)

/-- Settles O24: the read ends in `readAll`, whose buffer is `captured` of the bytes shifted in. -/
theorem readDiscardsOneByte : Obligations.ReadDiscardsOneByte := by
  intro a n s hf ht hb h1 hn _ hq
  have hmiso : (misoOf s (readFrame a n)).length = n + 1 := by rw [misoOf_length, readFrame_length]
  refine ⟨s.readAll a n, misoOf s (readFrame a n), exec_spiRead_live hf ht hb h1 hn hq, rfl, hmiso, fun i hi => ?_,
    fun i hi => ?_⟩
  · exact captured_getElem? _ hmiso hi
  · exact getElem?_eq_of_drop_eq ((captured_drop _ hmiso).trans (setHead_drop s.xbuf h1)) hi

/-- Settles O25: a transaction keeps what `Transported` says however far it has come. -/
theorem transportFrame : Obligations.TransportFrame := by
  refine ⟨fun c d s t h => ?_, fun a n s t h => ?_⟩
  · obtain ⟨-, -, rfl⟩ := startTransaction_next h
    obtain ⟨hkept, hxbuf, -⟩ := transported_runBus (transported_beginWrite c d s)
    have hx : (s.beginWrite c d).runBus.xbuf = s.xbuf := hxbuf
    rwa [TransportKept, hx] at hkept
  · obtain ⟨h1, rfl⟩ := exec_spiRead_next h
    obtain ⟨hkept, hxbuf, -⟩ := transported_runBus (transported_beginRead (a := a) s h1)
    exact ⟨hkept, fun i hi _ => getElem?_eq_of_drop_eq hxbuf hi⟩

/-- Settles O36: in either hold no step moves the block. -/
theorem holdsWithoutEnd : Obligations.HoldsWithoutEnd :=
  fun _ n _ hc hf ha => ⟨runUnder_held n hc hf ha, runUnder_settling n hc hf ha⟩

/-- Settles O60: the run is a turn of SEQ, `k` TICK steps, a turn of SEQ, and a RESET, each keeping the moves after it. -/
theorem othersMoveBetweenMicroSteps : Obligations.OthersMoveBetweenMicroSteps := by
  intro sched k s t u rest hc hf hq ha ht htf hu huf
  obtain ⟨htcfg, htq⟩ := seqMicro_cfg_quantum ht
  obtain ⟨hucfg, -⟩ := seqMicro_cfg_quantum hu
  have htwf : t.cfg.wf = true := htcfg ▸ hc
  have huwf : u.cfg.wf = true := hucfg ▸ htwf
  have hta : t.agenda = List.replicate k .tick ++ .seq :: .reset :: rest :=
    (envKept_seqMicro ht).agenda.trans (by rw [moveTaken_of_cons ha])
  have hua : u.agenda = .reset :: rest := (envKept_seqMicro hu).agenda
  let v : State := { t with ticks := t.ticks + k, agenda := .seq :: .reset :: rest }
  have hfirst : runUnder sched 1 s = some t := runUnder_micro hc hf hq ha ht
  have hticks : runUnder sched k t = some v := runUnder_ticks k _ htwf hta
  have hsecond : runUnder sched 1 v = some u := runUnder_micro htwf htf (htq.trans hq) rfl hu
  have hreset : stepUnder sched u = .next { u with agenda := rest }.takeReset := by
    rw [stepUnder_reset huwf huf (nextMove_of_cons hua), moveTaken_of_cons hua]
  have hrun : runUnder sched (k + 2) s = some u := by
    rw [show k + 2 = 1 + (k + 1) by omega, runUnder_add 1 _ hfirst, runUnder_add k 1 hticks, hsecond]
  refine ⟨hrun, ?_⟩
  rw [runUnder_add (k + 2) 1 hrun, runUnder_succ 0 hreset, runUnder_zero]

end Sys2Proof.Machine
end

section
/-!
The host commands as runs of SEQ (41_driver.md): how a command that is admitted comes to its return (R150, R155), and the
transactions, the compute phases and the waits on the way there, each in so many micro-steps.
-/

namespace Sys2Proof.Machine

variable {s t u : State} {a c : Byte} {n k : Nat} {isInit : Bool} {start : State → State}

/-! ## From command entry to the return -/

/-- A command's run, which nothing but a fault or a wait stops, comes from `s` to `t` in `k` moves. -/
abbrev CommandReaches (k : Nat) (s t : State) : Prop := Reaches (fun _ => false) k s t

theorem commandReaches_micro (hf : s.faults = 0) (h : seqMicro s = some t) : CommandReaches 1 s t :=
  reaches_micro (quiescent_of hf) rfl h

/-- An admitted command ends where its run comes to a fault or has nothing left to do. -/
theorem issue_of_reaches (ha : Admits (if isInit then .uninit else .ready) s)
    (h : CommandReaches k (start (s.admitted c)) t) (hk : k ≤ (start (s.admitted c)).quantum)
    (ht : t.quiescent = true ∨ advance t = none) : issue c isInit start s = .next t := by
  obtain ⟨hf, hb, hs, hn⟩ := ha
  rw [issue_admits hf hb hs hn, runSeq_of_reaches h hk ht]

/-- The return hands over the command's result and leaves the block idle (R155). -/
theorem exitStep_eq_exit {status : Status} {value : Option Value} (hb : s.bus = .idle)
    (hr : commandResult s = ⟨status, value⟩) : exitStep s = s.exit status value := by
  rw [exitStep, hr, State.exit, ← hb]
  rfl

/-- An admitted command whose run comes to DONE ends with the return (R155). -/
theorem issue_of_done (ha : Admits (if isInit then .uninit else .ready) s)
    (h : CommandReaches k (start (s.admitted c)) u) (hk : k + 1 ≤ (start (s.admitted c)).quantum)
    (hf : u.faults = 0) (hb : u.bus = .idle) (hp : u.phase = .done) (ht : exitStep u = t) :
    issue c isInit start s = .next t := by
  have hexit : seqMicro u = some t := by simp only [seqMicro, hb, phaseStep, hp, ht]
  have hidle : advance t = none := by
    subst ht
    exact advance_idle rfl hb
  exact issue_of_reaches ha (reaches_trans h (commandReaches_micro hf hexit)) hk (.inr hidle)

/-- A phase that reads: the read begins, runs on a live bus, and its bytes are used (R137, R151, R153). -/
theorem commandReaches_read (hf : s.faults = 0) (hr : BusLive s) (hb : s.bus = .idle)
    (hbegin : phaseStep s = some (s.beginRead a n)) (hend : afterBus (s.readAll a n) = some t) :
    CommandReaches (n + 5) s t := by
  have h1 : CommandReaches 1 s (s.beginRead a n) := commandReaches_micro hf (by simpa only [seqMicro, hb] using hbegin)
  have h2 : CommandReaches (n + 3) (s.beginRead a n) (s.readAll a n) :=
    reaches_read a n s hr (quiescent_of hf) fun _ _ => rfl
  have h3 : CommandReaches 1 (s.readAll a n) t := commandReaches_micro hf hend
  have h := reaches_trans (reaches_trans h1 h2) h3
  rwa [show 1 + (n + 3) + 1 = n + 5 by omega] at h

/-! ## INIT -/

/-- INIT after its identification read (R151). -/
def State.identified (s : State) : State := (s.admitted 0x01).readAll s.cfg.regId 1

/-- INIT after its calibration read, the identification read having found the variant `k` (R151, R153). -/
def State.calibrated (k : Kind) (s : State) : State := { s.identified with kind := k }.readAll s.cfg.regCalib 24

/-- With an answer that is not recognised INIT is the unsupported path (R152). -/
theorem initAll_of_unrecognised (h : identify (s.identified.xbufAt 0) = none) :
    s.initAll = { s.identified with kind := .unknown, state := .unsupported }.exit .eUnsupported none := by
  unfold State.identified at h
  simp only [State.initAll, h]
  rfl

/-- With a recognised answer INIT loads the calibration block (R153). -/
theorem initAll_of_recognised {k : Kind} (h : identify (s.identified.xbufAt 0) = some k) :
    s.initAll =
      { s.calibrated k with cal := parseCal ((s.calibrated k).xbuf.take 24), state := .ready }.exit .ok none := by
  unfold State.identified at h
  simp only [State.initAll, h]
  rfl

theorem idReadDone_of_unrecognised (h : identify (s.xbufAt 0) = none) :
    idReadDone s = { s with kind := .unknown, state := .unsupported }.goTo .done := by
  simp only [idReadDone, h]

theorem idReadDone_of_recognised {k : Kind} (h : identify (s.xbufAt 0) = some k) :
    idReadDone s = { s with kind := k }.goTo .calRead := by
  simp only [idReadDone, h]

/-- INIT's identification read, up to the test of its answer (R151). -/
theorem commandReaches_identification (hf : s.faults = 0) (hr : BusLive s) :
    CommandReaches 6 ((s.admitted 0x01).atPhase .idRead) (idReadDone (s.identified.atPhase .idRead)) :=
  commandReaches_read hf hr rfl rfl rfl

/-- With an answer that is not recognised INIT ends after one read (R152). -/
theorem exec_init_unrecognised (ha : Admits .uninit s) (hr : BusLive s) (hq : 7 ≤ s.quantum)
    (hid : identify (s.identified.xbufAt 0) = none) : exec .init s = .next s.initAll := by
  have h := commandReaches_identification ha.1 hr
  rw [idReadDone_of_unrecognised (s := s.identified.atPhase .idRead) hid] at h
  rw [initAll_of_unrecognised hid]
  exact issue_of_done ha h hq ha.1 rfl rfl rfl

/-- With a recognised answer INIT reads and parses the calibration block (R153). -/
theorem exec_init_recognised {k : Kind} (ha : Admits .uninit s) (hr : BusLive s) (hq : 37 ≤ s.quantum)
    (hid : identify (s.identified.xbufAt 0) = some k) : exec .init s = .next s.initAll := by
  have hread := commandReaches_identification ha.1 hr
  rw [idReadDone_of_recognised (s := s.identified.atPhase .idRead) hid] at hread
  have hcal : CommandReaches 29 ({ s.identified.atPhase .idRead with kind := k }.goTo .calRead)
      ((s.calibrated k).goTo .parse) := commandReaches_read ha.1 hr rfl rfl rfl
  have hparse : CommandReaches 1 ((s.calibrated k).goTo .parse) (parseStep ((s.calibrated k).goTo .parse)) :=
    commandReaches_micro ha.1 rfl
  rw [initAll_of_recognised hid]
  exact issue_of_done ha (reaches_trans (reaches_trans hread hcal) hparse) hq ha.1 rfl rfl rfl

/-- What a transaction shifts in while SENSOR's answers are given first. -/
theorem misoOf_of_sensor {b rest mosi : List Byte} (hs : s.sensor = b ++ rest) (hb : b.length = mosi.length) :
    misoOf s mosi = b := by
  refine List.ext_getElem (by simp [misoOf, hb]) fun i _ hi => ?_
  simp [misoOf, misoAt, hs, List.getElem?_append_left hi, hi]

/-- XBUF and HIST after a read whose answer SENSOR gives: one byte for the address, then `b` (R33, R138). -/
theorem readAll_of_sensor {x : Byte} {b rest : List Byte} (hs : s.sensor = x :: (b ++ rest)) (hb : b.length = n)
    (h1 : 1 ≤ n) :
    (s.readAll a n).xbuf = b ++ s.xbuf.drop n ∧
      (s.readAll a n).hist = s.hist ++ [⟨a :: List.replicate n 0, x :: b⟩] := by
  have hmiso : misoOf s (readFrame a n) = x :: b :=
    misoOf_of_sensor (rest := rest) (by simpa using hs) (by rw [readFrame_length, List.length_cons, hb])
  refine ⟨?_, by rw [readAll_hist, hmiso]; rfl⟩
  rw [readAll_xbuf, readBuffer, hmiso, captured, setHead_drop _ h1]
  simp [addrPhaseLen, hb]

/-- The identification byte is the second one SENSOR shifts in (R138, R151). -/
theorem identified_of_sensor {x id : Byte} {rest : List Byte} (hs : s.sensor = x :: id :: rest) :
    s.identified.xbuf = id :: s.xbuf.drop 1 ∧ s.identified.sensor = rest ∧
      s.identified.hist = s.hist ++ [⟨[s.cfg.regId, 0], [x, id]⟩] := by
  obtain ⟨hx, hh⟩ := readAll_of_sensor (s := s.admitted 0x01) (a := s.cfg.regId) (b := [id]) (n := 1) hs rfl le_rfl
  exact ⟨hx, congrArg (List.drop 2) hs, hh⟩

end Sys2Proof.Machine
end

section
/-!
SAMPLE and the temperature accessors (41_driver.md): what SAMPLE leaves unchanged, the run from command entry to COMPUTE, and POLL
while the sensor answers busy (R160 to R164, R170, R171).
-/

namespace Sys2Proof.Machine

variable {s t : State} {c : Byte} {n : Nat}

/-! ## SAMPLE -/

/-- SAMPLE's own run ends only when its burst is latched. -/
theorem measuresOn_sampleDone : MeasuresOn sampleDone := by
  rintro u (hu | hu) <;> simp [sampleDone, hu]

theorem measuresOn_command : MeasuresOn fun _ => false := fun _ _ => rfl

/-- What SAMPLE changes (R160). -/
theorem sampleAll_frame (n : Nat) (s : State) :
    s.sampleAll n =
      { s with
        state := .ready, phase := .burst, bus := .idle, raw := (s.sampleAll n).raw, xbuf := (s.sampleAll n).xbuf,
        cs := (s.sampleAll n).cs, hist := (s.sampleAll n).hist, settleTarget := (s.sampleAll n).settleTarget,
        ticks := (s.sampleAll n).ticks, sensor := (s.sampleAll n).sensor, agenda := (s.sampleAll n).agenda,
        draws := (s.sampleAll n).draws } := by
  simp only [State.sampleAll, State.sampleHead]
  rw [pollAll_frame n s.triggerAll]
  rfl

@[simp] theorem sampleAll_state : (s.sampleAll n).state = .ready := rfl
@[simp] theorem sampleAll_phase : (s.sampleAll n).phase = .burst := rfl
@[simp] theorem sampleAll_bus : (s.sampleAll n).bus = .idle := rfl
@[simp] theorem sampleAll_cfg : (s.sampleAll n).cfg = s.cfg := by rw [sampleAll_frame]
@[simp] theorem sampleAll_cal : (s.sampleAll n).cal = s.cal := by rw [sampleAll_frame]
@[simp] theorem sampleAll_cmd : (s.sampleAll n).cmd = s.cmd := by rw [sampleAll_frame]
@[simp] theorem sampleAll_faults : (s.sampleAll n).faults = s.faults := by rw [sampleAll_frame]

theorem pollAll_hist_length (n : Nat) (s : State) : (s.pollAll n).hist.length = s.hist.length + n + 1 := by
  induction n generalizing s with
  | zero => simp [State.pollAll, State.pollOnce]
  | succ n ih =>
    rw [State.pollAll, ih, State.pollOnce, readAll_hist, List.length_append, List.length_singleton]
    omega

/-- SAMPLE's transactions: the trigger, `n + 1` status reads and the burst. -/
theorem sampleAll_hist_length (n : Nat) (s : State) : (s.sampleAll n).hist.length = s.hist.length + n + 3 := by
  have hhead : (s.sampleHead n).hist = (s.triggerAll.pollAll n).hist := rfl
  have hburst : (s.sampleAll n).hist.length = (s.sampleHead n).hist.length + 1 := List.length_append
  have htrigger : s.triggerAll.hist.length = s.hist.length + 1 := List.length_append
  rw [hburst, hhead, pollAll_hist_length, htrigger]
  omega

/-- SAMPLE called where R160's precondition holds. -/
theorem exec_sample_of_precondition (hf : s.faults = 0) (hn : s.inTransaction = false) (hs : s.state = .ready)
    (hb : s.busy = true) : exec .sample s = .next s.startSample.runSample := by
  refine (whenLive_of hf).trans ?_
  rw [hn, if_neg Bool.false_ne_true, if_pos ⟨hs, hb⟩]

/-! ## The temperature accessors -/

/-- A temperature accessor samples and comes to COMPUTE (R170, R171). -/
theorem commandReaches_compute (hc : isTempRead c = true) (ha : Admits .ready s) (hr : BusLive s) (ht : TicksComing s)
    (he : (s.admitted c).triggerAll.pollEnds n = true) :
    CommandReaches (25 + 6 * n + s.cfg.settleTicks) (s.admitted c).startSample
      (((s.admitted c).sampleAll n).atPhase .compute) := by
  have hsample := reaches_sample n (s.admitted c) hr ha.1 measuresOn_command he ht
  have hend : CommandReaches 1 ((s.admitted c).sampleAll n) (((s.admitted c).sampleAll n).atPhase .compute) :=
    commandReaches_micro (by simpa using ha.1) (by simp [seqMicro, phaseStep, hc])
  have h := reaches_trans hsample hend
  rwa [admitted_cfg, show 24 + 6 * n + s.cfg.settleTicks + 1 = 25 + 6 * n + s.cfg.settleTicks by omega] at h

/-- READ_T_INT's COMPUTE where COMP_T_INT answers (R170). -/
theorem computeStep_tInt_ok {tf v : S32} (hc : s.cmd = 0x10)
    (h : compTInt s.cfg.overflowMode s.raw.adcT s.cal.t1 s.cal.t2 s.cal.t3 = .ok (tf, v)) :
    computeStep s = some { s with tfineI := tf, resTInt := v, phase := .done }.pairInt := by
  simp only [computeStep, if_pos hc, computeTInt, h]

/-- READ_T_INT's COMPUTE where COMP_T_INT faults (R170). -/
theorem computeStep_tInt_error {f : FaultBit} (hc : s.cmd = 0x10)
    (h : compTInt s.cfg.overflowMode s.raw.adcT s.cal.t1 s.cal.t2 s.cal.t3 = .error f) :
    computeStep s = some (s.raise f) := by
  simp only [computeStep, if_pos hc, computeTInt, h]

/-- READ_T_FLT's COMPUTE where COMP_T_FLT answers (R171). -/
theorem computeStep_tFlt_ok {tf : TfineF} {v : F64} (hc : s.cmd = 0x20)
    (h : compTFlt s.cfg.floatTfineKind s.raw.adcT s.cal.t1 s.cal.t2 s.cal.t3 = .ok (tf, v)) :
    computeStep s = some { s with tfineF := tf, resTFlt := v, phase := .done }.pairFlt := by
  have hne : s.cmd ≠ 0x10 := by simp [hc]
  simp only [computeStep, if_neg hne, if_pos hc, computeTFlt, h]

theorem commandResult_tInt (hc : s.cmd = 0x10) : commandResult s = ⟨.ok, some (.s32 s.resTInt)⟩ := if_pos hc

theorem commandResult_tFlt (hc : s.cmd = 0x20) : commandResult s = ⟨.ok, some (.f64 s.resTFlt)⟩ := by
  have hne : s.cmd ≠ 0x10 := by simp [hc]
  exact (if_neg hne).trans (if_pos hc)

/-- The micro-step at COMPUTE. -/
theorem commandReaches_computeStep (hf : s.faults = 0) (hb : s.bus = .idle) (hp : s.phase = .compute)
    (h : computeStep s = some t) : CommandReaches 1 s t :=
  commandReaches_micro hf (by simpa only [seqMicro, hb, phaseStep, hp] using h)

/-- A temperature accessor whose COMPUTE comes to DONE returns (R155). -/
theorem issue_temperature_done {v : State} (hc : isTempRead c = true) (ha : Admits .ready s) (hr : BusLive s)
    (ht : TicksComing s) (he : (s.admitted c).triggerAll.pollEnds n = true)
    (hq : 27 + 6 * n + s.cfg.settleTicks ≤ s.quantum)
    (hstep : computeStep (((s.admitted c).sampleAll n).atPhase .compute) = some v) (hf : v.faults = 0)
    (hb : v.bus = .idle) (hp : v.phase = .done) (hexit : exitStep v = t) :
    issue c false State.startSample s = .next t := by
  have hcompute := commandReaches_compute hc ha hr ht he
  have hdone := commandReaches_computeStep (s := ((s.admitted c).sampleAll n).atPhase .compute)
    (sampleAll_faults.trans ha.1) rfl rfl hstep
  exact issue_of_done ha (reaches_trans hcompute hdone) (by simp; omega) hf hb hp hexit

/-! ## POLL while the sensor answers busy -/

/-- POLL after `n` status reads, each answer used (R162). -/
def State.polled : Nat → State → State
  | 0, s => s
  | n + 1, s => { s.pollOnce with bus := .idle }.polled n

/-- A busy answer leaves SEQ in POLL (R162). -/
theorem pollDone_of_busy (h : s.pollClear = false) : pollDone s.pollOnce = { s.pollOnce with bus := .idle } :=
  if_neg fun hd => Bool.false_ne_true (h.symm.trans hd)

/-- `n` busy answers keep SEQ in POLL for `n` status reads (R162). -/
theorem commandReaches_polled (n : Nat) (s : State) (hr : BusLive s) (hf : s.faults = 0) (hm : s.state = .measuring)
    (he : s.pollBusy n = true) (hp : s.phase = .poll) (hb : s.bus = .idle) :
    CommandReaches (6 * n) s (s.polled n) := by
  induction n generalizing s with
  | zero => exact reaches_refl s
  | succ n ih =>
    obtain ⟨hbusy, he⟩ : s.pollClear = false ∧ s.pollOnce.pollBusy n = true := by simpa [State.pollBusy] using he
    have hread := reaches_pollRead s hr hf hm measuresOn_command hp hb
    have he' : { s.pollOnce with bus := .idle }.pollBusy n = true := by cases n <;> exact he
    rw [pollDone_of_busy hbusy] at hread
    have h := reaches_trans hread (ih { s.pollOnce with bus := .idle } hr hf hm he' hp rfl)
    rwa [show 6 + 6 * n = 6 * (n + 1) by omega] at h

/-- POLL keeps the registers of the command in progress, and HIST gains its reads (R162). -/
theorem polled_kept (n : Nat) (s : State) :
    (s.polled n).phase = s.phase ∧ (s.polled n).state = s.state ∧ (s.polled n).busy = s.busy ∧
      (s.polled n).results = s.results ∧ (s.polled n).raw = s.raw ∧
      (s.polled n).hist.length = s.hist.length + n := by
  induction n generalizing s with
  | zero => exact ⟨rfl, rfl, rfl, rfl, rfl, rfl⟩
  | succ n ih =>
    obtain ⟨hp, hs, hb, hres, hraw, hh⟩ := ih { s.pollOnce with bus := .idle }
    refine ⟨hp, hs, hb, hres, hraw, hh.trans ?_⟩
    simp only [State.pollOnce, readAll_hist, List.length_append, List.length_singleton]
    omega

/-- SAMPLE's way to POLL: TRIGGER's write (R160, R161). -/
theorem commandReaches_trigger (hr : BusLive s) (hf : s.faults = 0) :
    CommandReaches 6 s.startSample { s.triggerAll with bus := .idle } := by
  have hbegin : CommandReaches 1 s.startSample (s.startSample.beginWrite s.cfg.regCtrlMeas s.cfg.ctrlMeasValue) :=
    commandReaches_micro hf rfl
  have hwrite : CommandReaches 4 (s.startSample.beginWrite s.cfg.regCtrlMeas s.cfg.ctrlMeasValue)
      (s.startSample.writeAll s.cfg.regCtrlMeas s.cfg.ctrlMeasValue) :=
    reaches_write _ _ s.startSample hr (quiescent_of hf) fun _ _ => rfl
  have hend : CommandReaches 1 (s.startSample.writeAll s.cfg.regCtrlMeas s.cfg.ctrlMeasValue)
      { s.triggerAll with bus := .idle } := commandReaches_micro hf rfl
  exact reaches_trans (reaches_trans hbegin hwrite) hend

end Sys2Proof.Machine
end

section
/-!
The pressure accessors from COMPUTE to the return (R172, R173), and the parser's and the unpacker's fields as integers (R101, R103,
R154, R165).
-/

namespace Sys2Proof.Machine

variable {s t : State} {c : Byte}

/-! ## The pressure accessors -/

/-- READ_P_INT's COMPUTE where the block is paired and the pressure operation answers (R172). -/
theorem computeStep_pInt_ok {p : U32} (hc : s.cmd = 0x11) (hp : s.pairedI = true)
    (h : compPInt s.cfg.pressureIntVariant s.cfg.overflowMode s.raw.adcP s.tfineI s.cal.pressure = .ok p) :
    computeStep s = some { s with resPInt := p, phase := .done } := by
  simp [computeStep, computePInt, hc, hp, h]

/-- READ_P_FLT's COMPUTE where the block is paired (R173). -/
theorem computeStep_pFlt_paired (hc : s.cmd = 0x21) (hp : s.pairedF = true) :
    computeStep s =
      some { s with resPFlt := compPFlt s.raw.adcP (tfineFValue s.tfineF) s.cal.pressure, phase := .done } := by
  simp [computeStep, computePFlt, hc, hp]

/-- A pressure accessor whose COMPUTE comes to DONE returns (R155). -/
theorem issue_pressure_done {v : State} (ha : Admits .ready s) (hq : 2 ≤ s.quantum)
    (hstep : computeStep ((s.admitted c).atPhase .compute) = some v) (hf : v.faults = 0) (hb : v.bus = .idle)
    (hp : v.phase = .done) (hexit : exitStep v = t) : issue c false (State.atPhase .compute) s = .next t :=
  issue_of_done ha (commandReaches_computeStep ha.1 rfl rfl hstep) hq hf hb hp hexit

/-! ## The parser and the unpacker -/

/-- Two words side by side as a number. -/
theorem toNat_append_eq_add {v w : Nat} (x : BitVec v) (y : BitVec w) : (x ++ y).toNat = x.toNat * 2 ^ w + y.toNat := by
  rw [BitVec.toNat_append, ← Nat.shiftLeft_add_eq_or_of_lt y.isLt, Nat.shiftLeft_eq]

/-- R101: a coefficient's low byte is at the lower offset. -/
theorem word16_toNat (b : List Byte) (k : Nat) :
    ((word16 b k).toNat : Int) = (b.getD (2 * k) 0).toNat + 256 * (b.getD (2 * k + 1) 0).toNat := by
  rw [word16, toNat_append_eq_add]
  omega

/-- R101: a signed coefficient is the two's-complement reading of its word. -/
theorem toInt_of_toNat {x : BitVec 16} {u : Int} (hu : x.toNat = u) :
    x.toInt = if u < 32768 then u else u - 65536 := by
  rw [BitVec.toInt_eq_toNat_cond]
  split <;> split <;> omega

/-- CAL_PARSE answers on every 24 bytes (R154). -/
theorem exec_calParse_of_length {b : List Byte} (hf : s.faults = 0) (hb : b.length = 24) :
    exec (.calParse b) s = .next { s with opResult := some (.cal (parseCal b)) } :=
  (whenLive_of hf).trans ((if_pos hb).trans (finishOp_ok hf))

/-- R103: a raw value is 20 bits, the last four the high nibble of its third byte. -/
theorem adc20_toNat (msb lsb xlsb : Byte) :
    (adc20 msb lsb xlsb).toNat = msb.toNat * 4096 + lsb.toNat * 16 + xlsb.toNat / 16 := by
  have hm := msb.isLt
  have hl := lsb.isLt
  have hx := xlsb.isLt
  rw [adc20, BitVec.toNat_setWidth, toNat_append_eq_add, toNat_append_eq_add, BitVec.extractLsb'_toNat,
    Nat.shiftRight_eq_div_pow]
  omega

theorem adc20_lt (msb lsb xlsb : Byte) : (adc20 msb lsb xlsb).toNat < 2 ^ 20 := by
  rw [adc20_toNat]
  omega

/-- A raw value is not negative as an s32 (R165). -/
theorem adc20_toInt (msb lsb xlsb : Byte) :
    (adc20 msb lsb xlsb).toInt = msb.toNat * 4096 + lsb.toNat * 16 + xlsb.toNat / 16 := by
  have hlt := adc20_lt msb lsb xlsb
  rw [BitVec.toInt_eq_toNat_of_lt (by omega), adc20_toNat]
  push_cast
  rfl

/-- RAW_UNPACK answers on every six bytes (R165). -/
theorem exec_rawUnpack_of_length {r : List Byte} (hf : s.faults = 0) (hr : r.length = 6) :
    exec (.rawUnpack r) s = .next { s with opResult := some (.raw (rawOfBytes r).adcP (rawOfBytes r).adcT) } :=
  (whenLive_of hf).trans ((if_pos hr).trans (finishOp_ok hf))

end Sys2Proof.Machine
end

section
/-!
SETTLE under TICK_FAIR (R163, R281): as long as no turn of SEQ meets a target that is reached, a run only counts ticks and turns
and follows the bus hardware's bit; the first such turn comes, and it leaves SETTLE.
-/

namespace Sys2Proof.Machine

variable {stop : State → Bool} {sched : Nat → Turn} {s : State} {S : List Phase}

/-! ## The ticks of a schedule -/

/-- How many of the `n` turns from `start` on are TICK's. -/
def ticksIn (sched : Nat → Turn) (start n : Nat) : Nat := Nat.count (fun i => sched (start + i) = .tick) n

theorem ticksIn_succ (start n : Nat) :
    ticksIn sched start (n + 1) = ticksIn sched start n + if sched (start + n) = .tick then 1 else 0 :=
  Nat.count_succ _ n

/-- Under TICK_FAIR any number of ticks comes (R281). -/
theorem exists_ticksIn_eq (h : TickFair sched) (start k : Nat) : ∃ n, ticksIn sched start n = k := by
  refine Nat.surjective_count_of_infinite_setOfPred (Nat.frequently_atTop_iff_infinite.1 ?_) k
  refine Filter.frequently_atTop.2 fun n => ?_
  obtain ⟨m, hm, htick⟩ := h (start + n)
  exact ⟨m - start, by omega, by rwa [Nat.add_sub_cancel' (by omega)]⟩

/-- The `n`-th turn from `s` on is SEQ's, and SETTLE's target is reached by then. -/
def SettleOver (sched : Nat → Turn) (s : State) (n : Nat) : Prop :=
  sched (s.turns + n) = .seq ∧ s.settleTarget ≤ s.ticks + ticksIn sched s.turns n

theorem exists_settleOver (ht : TickFair sched) (hs : SeqFair sched) (s : State) : ∃ n, SettleOver sched s n := by
  obtain ⟨k, hk⟩ := exists_ticksIn_eq ht s.turns s.settleTarget
  obtain ⟨m, hm, hseq⟩ := hs (s.turns + k)
  have hle : ticksIn sched s.turns k ≤ ticksIn sched s.turns (m - s.turns) := Nat.count_monotone _ (by omega)
  exact ⟨m - s.turns, by rwa [Nat.add_sub_cancel' (by omega)], by omega⟩

/-! ## Up to the turn that ends it -/

/-- A turn that does not end SETTLE: TICK's, the bus hardware's, or SEQ's before the target is reached (R163). -/
theorem stepUnder_settle (hc : s.cfg.wf = true) (hf : s.faults = 0) (ha : s.agenda = []) (hp : s.phase = .settle)
    (hb : s.bus = .idle) (hs : sched s.turns = .seq ∨ sched s.turns = .tick ∨ ∃ b, sched s.turns = .bus b)
    (hover : ¬(sched s.turns = .seq ∧ s.settleTarget ≤ s.ticks)) :
    ∃ ready, stepUnder sched s = .next
      { s with
        ticks := s.ticks + if sched s.turns = .tick then 1 else 0
        busReady := ready, turns := s.turns + 1 } := by
  have hnext := nextMove_of_nil (sched := sched) ha
  have htaken := moveTaken_of_nil ha
  rcases hs with h | h | ⟨b, h⟩ <;> rw [h] at hnext
  · have hlt : s.ticks < s.settleTarget := not_le.1 fun hle => hover ⟨h, hle⟩
    have hstuck : advance s.moveTaken = none := by
      rw [htaken]
      exact advance_settling hp hb hlt ha
    exact ⟨s.busReady, by rw [stepUnder_stuck hc hf hnext hstuck, htaken, h]; rfl⟩
  · exact ⟨s.busReady, by rw [stepUnder_tick hc hnext, htaken, h]; rfl⟩
  · exact ⟨b, by rw [stepUnder_bus hc hnext, htaken, h]; rfl⟩

/-- The run until SETTLE is over. -/
theorem runUnder_settle (n : Nat) (hc : s.cfg.wf = true) (hf : s.faults = 0) (ha : s.agenda = [])
    (hp : s.phase = .settle) (hb : s.bus = .idle) (hs : ∀ i, sched i = .seq ∨ sched i = .tick ∨ ∃ b, sched i = .bus b)
    (hover : ∀ m < n, ¬SettleOver sched s m) :
    ∃ ready, runUnder sched n s = some
      { s with ticks := s.ticks + ticksIn sched s.turns n, busReady := ready, turns := s.turns + n } := by
  induction n with
  | zero => exact ⟨s.busReady, rfl⟩
  | succ n ih =>
    obtain ⟨ready, hrun⟩ := ih fun m hm => hover m (by omega)
    let w : State := { s with ticks := s.ticks + ticksIn sched s.turns n, busReady := ready, turns := s.turns + n }
    obtain ⟨ready', hstep⟩ := stepUnder_settle (s := w) hc hf ha hp hb (hs _) (hover n (by omega))
    refine ⟨ready', ?_⟩
    rw [runUnder_add n 1 hrun, runUnder_succ 0 hstep, ticksIn_succ, ← Nat.add_assoc]
    rfl

/-! ## The turn that ends it -/

/-- A run that does not leave the phases `S` ends in one of them. -/
theorem phase_mem_seqRun (hS : StaysIn stop S) (hp : s.phase ∈ S) (n : Nat) : (seqRun stop n s).phase ∈ S :=
  seqRun_induct (fun a => a.phase ∈ S) (fun a b ha _ hs h => hS a b ha hs h) n hp

/-- With no move of TICK on the agenda a run of SEQ leaves the tick count alone (R253). -/
theorem ticks_seqRun (ha : s.agenda = []) (n : Nat) : (seqRun stop n s).ticks = s.ticks := by
  have h : (seqRun stop n s).agenda = [] ∧ (seqRun stop n s).ticks = s.ticks := by
    refine seqRun_induct (fun a => a.agenda = [] ∧ a.ticks = s.ticks) ?_ n ⟨ha, rfl⟩
    rintro a b ⟨hagenda, hticks⟩ - - h
    rcases advance_cases h with h | ⟨-, -, ⟨rest, hcons, -⟩ | ⟨_, rest, hcons, -⟩⟩
    · have hkept := envKept_seqMicro h
      exact ⟨hkept.agenda.trans hagenda, hkept.ticks.trans hticks⟩
    · exact absurd (hagenda.symm.trans hcons) (by simp)
    · exact absurd (hagenda.symm.trans hcons) (by simp)
  exact h.2

/-- The phases after SETTLE (R36). -/
def afterSettlePhases : List Phase := [.burst, .compute, .done, .idle]

theorem afterSettlePhases_staysIn : StaysIn stop afterSettlePhases := staysIn_of_closed (by decide)

/-- A turn of SEQ with the target reached goes to BURST, and does not come back (R163). -/
theorem stepUnder_settle_over (hc : s.cfg.wf = true) (hf : s.faults = 0) (ha : s.agenda = []) (hp : s.phase = .settle)
    (hb : s.bus = .idle) (hq : 1 ≤ s.quantum) (hs : sched s.turns = .seq) (ht : s.settleTarget ≤ s.ticks) :
    ∃ u, stepUnder sched s = .next u ∧ u.phase ≠ .settle ∧ u.ticks = s.ticks ∧
      (s.quantum = 1 → u = { s with phase := .burst, turns := s.turns + 1 }) := by
  obtain ⟨q, hq⟩ := Nat.exists_eq_add_of_le' hq
  let w : State := { s with phase := .burst, turns := s.turns + 1 }
  have hmicro : seqMicro s.moveTaken = some w := by
    rw [moveTaken_of_nil ha]
    simp [seqMicro, phaseStep, hb, hp, ht, State.atPhase, w]
  have hstep : stepUnder sched s = .next (seqRun (fun _ => false) q w) := by
    rw [stepUnder_seq hc hf (by rw [nextMove_of_nil ha, hs]; rfl), State.runSeq, moveTaken_quantum, hq,
      seqRun_move q (quiescent_of (by simpa using hf)) rfl (advance_of_micro hmicro)]
  have hphase : (seqRun (fun _ => false) q w).phase ∈ afterSettlePhases :=
    phase_mem_seqRun afterSettlePhases_staysIn List.mem_cons_self q
  refine ⟨_, hstep, fun h => absurd (h ▸ hphase) (by decide), ticks_seqRun (s := w) ha q, fun h1 => ?_⟩
  obtain rfl : q = 0 := by omega
  rfl

end Sys2Proof.Machine
end

section
/-! The statements of 41_driver.md, settled. -/

namespace Sys2Proof.Machine

/-- Settles O27: the identification answer is recognised or not, and either way the run arrives at `initAll`. -/
theorem initCompletes : Obligations.InitCompletes := by
  intro s ha hr hq
  cases hid : identify (s.identified.xbufAt 0) with
  | none => exact exec_init_unrecognised ha hr (by omega) hid
  | some k => exact exec_init_recognised ha hr hq hid

/-- Settles O28: SENSOR's answers are the identification byte and the block that INIT's two reads capture. -/
theorem initLoadsCalibration : Obligations.InitLoadsCalibration := by
  intro s x id y block rest k ha hr hq _ _ hs hlen hk
  obtain ⟨hx1, hs1, hh1⟩ := identified_of_sensor hs
  obtain ⟨hx2, hh2⟩ := readAll_of_sensor (s := { s.identified with kind := k }) (a := s.cfg.regCalib) hs1 hlen (by omega)
  have hid : identify (s.identified.xbufAt 0) = some k := by rwa [State.xbufAt, hx1]
  have hxbuf : (s.calibrated k).xbuf = block ++ s.xbuf.drop 24 := by
    refine hx2.trans ?_
    rw [hx1, List.drop_succ_cons, List.drop_drop]
  refine ⟨s.initAll, exec_init_recognised ha hr hq hid, ?_⟩
  rw [initAll_of_recognised hid]
  refine ⟨rfl, rfl, ?_, rfl, rfl, rfl, rfl, hxbuf, ?_⟩
  · rw [exit_cal, hxbuf, List.take_left' hlen]
  · refine hh2.trans ?_
    rw [hh1, List.append_assoc]
    rfl

/-- Settles O29: the identification byte is not recognised. -/
theorem initRejectsOtherCodes : Obligations.InitRejectsOtherCodes := by
  intro s x id rest ha hr hq hs hA hB
  obtain ⟨hx, -, hh⟩ := identified_of_sensor hs
  have hid : identify (s.identified.xbufAt 0) = none := by
    rw [State.xbufAt, hx]
    exact (if_neg hA).trans (if_neg hB)
  refine ⟨s.initAll, exec_init_unrecognised ha hr hq hid, ?_⟩
  rw [initAll_of_unrecognised hid]
  exact ⟨rfl, rfl, rfl, rfl, rfl, rfl, hh⟩

/-- Settles O31: the run is `reaches_sample`'s, and `sampleDone` stops it there. -/
theorem sampleCompletes : Obligations.SampleCompletes := by
  intro n s hf hn hs hb hr ht he hq
  have hreach := reaches_sample n s hr hf measuresOn_sampleDone he ht
  refine ⟨?_, rfl, rfl, sampleAll_hist_length n s⟩
  rw [exec_sample_of_precondition hf hn hs hb, runSample_of_reaches hreach hq rfl]

/-- Settles O32: from COMPUTE the command returns where COMP_T_INT answers, and is quiescent where it overflows. -/
theorem readTIntCompletes : Obligations.ReadTIntCompletes := by
  intro n s ha hr ht he hq s1
  have hf : s1.faults = 0 := sampleAll_faults.trans ha.1
  have hcal : s1.cal = s.cal := sampleAll_cal
  have hcfg : s1.cfg = s.cfg := sampleAll_cfg
  have hcmd : (s1.atPhase .compute).cmd = 0x10 := sampleAll_cmd
  rw [← hcal, ← hcfg]
  refine ⟨fun tFine t h => ?_, fun h => ?_⟩
  · exact issue_temperature_done rfl ha hr ht he hq (computeStep_tInt_ok hcmd h) hf rfl rfl
      (exitStep_eq_exit rfl (commandResult_tInt hcmd))
  · have hcompute := commandReaches_compute (c := 0x10) rfl ha hr ht he
    have hfault := commandReaches_computeStep (s := s1.atPhase .compute) hf rfl rfl (computeStep_tInt_error hcmd h)
    have hraised : (s1.atPhase .compute).raise .arithOverflow = { s1 with phase := .compute, faults := 0x20 } := by
      rw [State.raise, atPhase_faults, hf]
      rfl
    rw [hraised] at hfault
    exact issue_of_reaches ha (reaches_trans hcompute hfault) (by simp; omega) (.inl rfl)

/-- Settles O33: the same run as READ_T_INT's, with COMP_T_FLT's results. -/
theorem readTFltCompletes : Obligations.ReadTFltCompletes := by
  intro n s ha hr ht he hq s1
  have hf : s1.faults = 0 := sampleAll_faults.trans ha.1
  have hcal : s1.cal = s.cal := sampleAll_cal
  have hcfg : s1.cfg = s.cfg := sampleAll_cfg
  have hcmd : (s1.atPhase .compute).cmd = 0x20 := sampleAll_cmd
  rw [← hcal, ← hcfg]
  intro tFine t h
  exact issue_temperature_done rfl ha hr ht he hq (computeStep_tFlt_ok hcmd h) hf rfl rfl
    (exitStep_eq_exit rfl (commandResult_tFlt hcmd))

/-- Settles O35: TRIGGER and `n` status reads use up the turn, in POLL. -/
theorem pollHasNoBound : Obligations.PollHasNoBound := by
  intro n s ha hr he hq
  let w : State := { (s.admitted 0x10).triggerAll with bus := .idle }
  have hbusy : w.pollBusy n = true := by cases n <;> exact he
  have hreach := reaches_trans (commandReaches_trigger (s := s.admitted 0x10) hr ha.1)
    (commandReaches_polled n w hr ha.1 rfl hbusy rfl rfl)
  have hrun : (s.admitted 0x10).startSample.runSeq = w.polled n := by
    rw [State.runSeq, startSample_quantum, admitted_quantum, hq]
    exact hreach 0
  obtain ⟨hp, hs, hb, hres, hraw, hh⟩ := polled_kept n w
  have htrigger : w.hist.length = s.hist.length + 1 := List.length_append
  obtain ⟨hf, hbusy, hst, hn⟩ := ha
  have hexec : exec .readTInt s = .next (w.polled n) :=
    (issue_admits (isInit := false) hf hbusy hst hn).trans (congrArg _ hrun)
  exact ⟨w.polled n, hexec, hp, hs, hb, hres, hraw, by rw [hh, htrigger]⟩

/-- Settles O37: one micro-step of COMPUTE, and the return. -/
theorem readPIntCompletes : Obligations.ReadPIntCompletes := by
  intro s p ha hpaired hq h
  exact issue_pressure_done ha hq (computeStep_pInt_ok rfl hpaired h) ha.1 rfl rfl rfl

/-- Settles O38: one micro-step of COMPUTE, which cannot fault, and the return. -/
theorem readPFltCompletes : Obligations.ReadPFltCompletes := by
  intro s ha hpaired hq
  exact issue_pressure_done ha hq (computeStep_pFlt_paired rfl hpaired) ha.1 rfl rfl rfl

/-- Settles O40: the state after a pressure read admits the next one, with the same operands and the same pairing. -/
theorem pressureReadsRepeat : Obligations.PressureReadsRepeat := by
  intro s ha hq
  have ⟨hf, _, hst, _⟩ := ha
  refine ⟨fun p hpaired h => ?_, fun hpaired => ?_⟩
  · have hfirst := readPIntCompletes s p ha hpaired hq h
    have hsecond := readPIntCompletes { s with
      cmd := 0x11, busy := false, phase := .idle, bus := .idle, resPInt := p,
      results := s.results ++ [⟨.ok, some (.u32 p)⟩] } p ⟨hf, rfl, hst, rfl⟩ hpaired hq h
    exact ⟨_, _, hfirst, hsecond, rfl, rfl, rfl, List.append_assoc .., rfl, rfl, rfl, hpaired, rfl⟩
  · let p : F64 := compPFlt s.raw.adcP (tfineFValue s.tfineF) s.cal.pressure
    have hfirst := readPFltCompletes s ha hpaired hq
    have hsecond := readPFltCompletes { s with
      cmd := 0x21, busy := false, phase := .idle, bus := .idle, resPFlt := p,
      results := s.results ++ [⟨.ok, some (.f64 p)⟩] } ⟨hf, rfl, hst, rfl⟩ hpaired hq
    exact ⟨p, _, _, hfirst, hsecond, rfl, rfl, rfl, List.append_assoc .., rfl, rfl, rfl, hpaired, rfl⟩

/-- Settles O41: the fields are `word16` at twelve offsets. -/
theorem calParseCompletes : Obligations.CalParseCompletes := by
  intro b s hf hb
  refine ⟨parseCal b, exec_calParse_of_length hf hb, ?_⟩
  intro u sg
  have hu : ∀ k, ((word16 b k).toNat : Int) = u k := word16_toNat b
  have hsg : ∀ k, (word16 b k).toInt = sg k := fun k => toInt_of_toNat (hu k)
  exact ⟨hu 0, hsg 1, hsg 2, hu 3, hsg 4, hsg 5, hsg 6, hsg 7, hsg 8, hsg 9, hsg 10, hsg 11⟩

/-- Settles O42: the two raw values are `adc20` of three bytes each. -/
theorem rawUnpackCompletes : Obligations.RawUnpackCompletes := by
  intro r0 r1 r2 r3 r4 r5 s hf
  exact ⟨adc20 r0 r1 r2, adc20 r3 r4 r5, exec_rawUnpack_of_length hf rfl, adc20_toInt r0 r1 r2, adc20_toInt r3 r4 r5,
    decide_eq_true (adc20_lt r0 r1 r2), decide_eq_true (adc20_lt r3 r4 r5)⟩

/-- Settles O59: the run comes to the first turn of SEQ that meets a reached target, and that turn leaves SETTLE. -/
theorem settleEndsUnderTickFair : Obligations.SettleEndsUnderTickFair := by
  intro sched s hc hf ha hp hb hq hs htick hseq
  classical
  let n := Nat.find (exists_settleOver htick hseq s)
  obtain ⟨hturn, htarget⟩ : SettleOver sched s n := Nat.find_spec (exists_settleOver htick hseq s)
  obtain ⟨ready, hrun⟩ := runUnder_settle n hc hf ha hp hb hs fun m hm => Nat.find_min _ hm
  let t : State := { s with ticks := s.ticks + ticksIn sched s.turns n, busReady := ready, turns := s.turns + n }
  obtain ⟨u, hstep, hphase, hticks, hone⟩ := stepUnder_settle_over (s := t) hc hf ha hp hb hq hturn htarget
  exact ⟨n, t, u, hrun, rfl, htarget, by rw [runUnder_add n 1 hrun, runUnder_succ 0 hstep, runUnder_zero], hphase, hticks,
    hone⟩

/-- Settles O5: command entry in a live block whose next move is HOST's. -/
theorem stepRunsHostCommand : Obligations.StepRunsHostCommand := by
  intro s c i hc hf hm hd
  have hstep : step s = takeMove exec State.runSeq s.upNext s.moveTaken := stepUnder_of_wf hc
  rw [hstep, hm]
  refine (whenLive_of (by simpa using hf)).trans ?_
  rw [hd]

end Sys2Proof.Machine
end

section
/-!
FXP's checked lines against the same lines in exact integers (R192): where every line's exact value is in range both modes give the
exact values, and FAULT mode raises ARITH_OVERFLOW where some line's is not.
-/

namespace Sys2Proof.Machine

variable {α β : Type} {mode : OverflowMode}

/-- What R192 makes of a computation, given whether the exact value of every line is in range and what the lines give. -/
structure Follows (r : OverflowMode → Except FaultBit α) (ok : Bool) (v : α) : Prop where
  inRange : ok = true → ∀ mode, r mode = .ok v
  overflow : ok = false → r .fault = .error .arithOverflow

/-! ## One line -/

theorem follows_pure (v : α) : Follows (fun _ => pure v) true v := ⟨fun _ _ => rfl, nofun⟩

/-- A line `S32(x)` whose exact value is `y`: the lines after it may take the exact value. -/
theorem follows_ckS32 {x y : Int} {ok : Bool} {v : α} {f : OverflowMode → Int → Except FaultBit α} (hxy : x = y)
    (h : Follows (fun m => f m y) ok v) : Follows (fun m => ckS32 m x >>= f m) (inS32 y && ok) v := by
  subst hxy
  cases hx : inS32 x with
  | true => exact ⟨fun hok m => (ckS32_bind_inRange hx _).trans (h.inRange hok m),
      fun hok => (ckS32_bind_inRange hx _).trans (h.overflow hok)⟩
  | false => exact ⟨nofun, fun _ => by simp [ckS32_bind_fault, hx]⟩

/-- The same for a line `S64(x)`. -/
theorem follows_ckS64 {x y : Int} {ok : Bool} {v : α} {f : OverflowMode → Int → Except FaultBit α} (hxy : x = y)
    (h : Follows (fun m => f m y) ok v) : Follows (fun m => ckS64 m x >>= f m) (inS64 y && ok) v := by
  subst hxy
  cases hx : inS64 x with
  | true => exact ⟨fun hok m => (ckS64_bind_inRange hx _).trans (h.inRange hok m),
      fun hok => (ckS64_bind_inRange hx _).trans (h.overflow hok)⟩
  | false => exact ⟨nofun, fun _ => by simp [ckS64_bind_fault, hx]⟩

/-- A last line `S64(v)`. -/
theorem follows_ckS64_last (v : Int) : Follows (fun m => ckS64 m v) (inS64 v && true) v := by
  simpa using follows_ckS64 (f := fun _ => pure) rfl (follows_pure v)

theorem Follows.map {r : OverflowMode → Except FaultBit α} {ok : Bool} {v : α} (h : Follows r ok v) (g : α → β) :
    Follows (fun m => (r m).map g) ok (g v) where
  inRange hok m := by rw [h.inRange hok m]; rfl
  overflow hok := by rw [h.overflow hok]; rfl

/-! ## COMP_T_INT

In this and the other operations one use of `follows_ckS32` or `follows_ckS64` is one line of the rule; a line that the exact lines
write with its factors exchanged says so. -/

theorem shl_one (a : Int) : shl a 1 = 2 * a := Int.mul_comm ..

theorem follows_compTIntZ (adcT : S32) (t1 : U16) (t2 t3 : S16) :
    Follows (fun m => compTIntZ m adcT.toInt t1.toNat t2.toInt t3.toInt) (exactTInt adcT t1 t2 t3).1
      (exactTInt adcT t1 t2 t3).2 := by
  simp only [compTIntZ, exactTInt, List.all_cons, List.all_nil]
  refine follows_ckS32 (shl_one _) ?_
  iterate 6 refine follows_ckS32 rfl ?_
  refine follows_ckS32 (Int.mul_comm ..) ?_
  refine follows_ckS32 rfl ?_
  exact follows_pure _

theorem compTInt_eq_map (adcT : S32) (t1 : U16) (t2 t3 : S16) :
    compTInt mode adcT t1 t2 t3 = (compTIntZ mode adcT.toInt t1.toNat t2.toInt t3.toInt).map
      fun r => (BitVec.ofInt 32 r.1, BitVec.ofInt 32 r.2) := by
  unfold compTInt
  cases compTIntZ mode adcT.toInt t1.toNat t2.toInt t3.toInt <;> rfl

theorem follows_compTInt (adcT : S32) (t1 : U16) (t2 t3 : S16) :
    Follows (fun m => compTInt m adcT t1 t2 t3) (exactTInt adcT t1 t2 t3).1
      (BitVec.ofInt 32 (exactTInt adcT t1 t2 t3).2.1, BitVec.ofInt 32 (exactTInt adcT t1 t2 t3).2.2) := by
  simp only [compTInt_eq_map]
  exact (follows_compTIntZ adcT t1 t2 t3).map _

/-! ## The zero guard (R200) -/

/-- The lines before the guard, and those after it where the denominator is not 0. -/
def guarded (head : Except FaultBit (Int × Int)) (tail : Int → Int → Except FaultBit U32) : Except FaultBit U32 :=
  head >>= fun r => if r.1 = 0 then pure 0 else tail r.1 r.2

theorem guarded_ok (den var2 : Int) (tail : Int → Int → Except FaultBit U32) :
    guarded (.ok (den, var2)) tail = if den = 0 then .ok 0 else tail den var2 := rfl

theorem guarded_error (f : FaultBit) (tail : Int → Int → Except FaultBit U32) :
    guarded (.error f) tail = .error f := rfl

theorem compPInt32_eq_guarded (adcP tFine : S32) (c : PressureCoeffs) :
    compPInt32 mode adcP tFine c = guarded (pInt32Head mode tFine.toInt c)
      fun den var2 => (pInt32Tail mode adcP.toInt den var2 c).map (BitVec.ofNat 32) := by
  unfold compPInt32
  rcases pInt32Head mode tFine.toInt c with f | ⟨den, var2⟩
  · rfl
  · refine congrArg (ite (den = 0) (Except.ok 0)) ?_
    cases pInt32Tail mode adcP.toInt den var2 c <;> rfl

theorem compPInt64_eq_guarded (adcP tFine : S32) (c : PressureCoeffs) :
    compPInt64 mode adcP tFine c = guarded (pInt64Head mode tFine.toInt c)
      fun den var2 => (pInt64Tail mode adcP.toInt den var2 c).map (BitVec.ofInt 32) := by
  unfold compPInt64
  rcases pInt64Head mode tFine.toInt c with f | ⟨den, var2⟩
  · rfl
  · refine congrArg (ite (den = 0) (Except.ok 0)) ?_
    cases pInt64Tail mode adcP.toInt den var2 c <;> rfl

theorem follows_guarded {head : OverflowMode → Except FaultBit (Int × Int)} {eh : Bool × Int × Int}
    {tail : OverflowMode → Int → Int → Except FaultBit U32} {et : Int → Int → Bool × Int} (hh : Follows head eh.1 eh.2)
    (ht : ∀ den var2, Follows (fun m => tail m den var2) (et den var2).1 (BitVec.ofInt 32 (et den var2).2)) :
    Follows (fun m => guarded (head m) (tail m)) (exactGuarded eh et).1 (BitVec.ofInt 32 (exactGuarded eh et).2) := by
  obtain ⟨ok, den, var2⟩ := eh
  cases ok with
  | false =>
    refine ⟨fun h => ?_, fun _ => by rw [hh.overflow rfl, guarded_error]⟩
    unfold exactGuarded at h
    split at h <;> cases h
  | true =>
    have hhead := hh.inRange rfl
    unfold exactGuarded
    simp only [hhead, guarded_ok, Bool.true_and]
    split
    · exact follows_pure _
    · exact ht den var2

/-- An overflow before the guard is one of the operation. -/
theorem exactGuarded_of_head {eh : Bool × Int × Int} {et : Int → Int → Bool × Int} (h : eh.1 = false) :
    (exactGuarded eh et).1 = false := by
  unfold exactGuarded
  split <;> simp [h]

/-! ## COMP_P_INT32 -/

theorem follows_pInt32Head (tFine : S32) (c : PressureCoeffs) :
    Follows (fun m => pInt32Head m tFine.toInt c) (exactPInt32Head tFine c).1 (exactPInt32Head tFine c).2 := by
  simp only [pInt32Head, exactPInt32Head, List.all_cons, List.all_nil]
  iterate 4 refine follows_ckS32 rfl ?_
  refine follows_ckS32 (shl_one _) ?_
  refine follows_ckS32 rfl ?_
  refine follows_ckS32 (Int.mul_comm ..) ?_
  iterate 6 refine follows_ckS32 rfl ?_
  exact follows_pure _

/-- The u32 lines of R198 and the division, from `a = 1048576 - adc_P`: they never fault (R195). -/
def pInt32Quotient (a den var2 : Int) : Nat :=
  let n := u32 (u32 ((u32 a : Int) - u32 (asr var2 12)) * 3125)
  if n < 0x80000000 then u32 (shl n 1) / u32 den else u32 (n / u32 den * 2 : Nat)

/-- The lines of R198 after the division. -/
def pInt32Refine (mode : OverflowMode) (p : Nat) (c : PressureCoeffs) : Except FaultBit Nat := do
  let x ← ckS32 mode (c.p9.toInt * modS32 (lsr (u32 (lsr p 3 * lsr p 3 : Nat)) 13))
  let y ← ckS32 mode (modS32 (lsr p 2) * c.p8.toInt)
  let u ← ckS32 mode (asr x 12 + asr y 13)
  let s ← ckS32 mode (u + c.p7.toInt)
  let z ← ckS32 mode (modS32 p + asr s 4)
  return u32 z

theorem pInt32Tail_eq (adcP den var2 : Int) (c : PressureCoeffs) :
    pInt32Tail mode adcP den var2 c =
      ckS32 mode (1048576 - adcP) >>= fun a => pInt32Refine mode (pInt32Quotient a den var2) c := rfl

theorem cast_u32 (v : Int) : (u32 v : Int) = v % 2 ^ 32 := Int.toNat_of_nonneg (Int.emod_nonneg v (by decide))

theorem cast_lsr (a k : Nat) : (lsr a k : Int) = asr a k := by simp [lsr, asr]

/-- The quotient's lines in exact integers, as `exactPInt32Tail` has them. -/
theorem cast_pInt32Quotient (a den var2 : Int) :
    (pInt32Quotient a den var2 : Int) =
      if (a - asr var2 12) * 3125 % 2 ^ 32 < 2 ^ 31 then 2 * ((a - asr var2 12) * 3125 % 2 ^ 32) / (den % 2 ^ 32)
      else 2 * ((a - asr var2 12) * 3125 % 2 ^ 32 / (den % 2 ^ 32)) % 2 ^ 32 := by
  have hn : (u32 (u32 ((u32 a : Int) - u32 (asr var2 12)) * 3125) : Int) = (a - asr var2 12) * 3125 % 2 ^ 32 := by
    simp only [cast_u32]
    omega
  rw [pInt32Quotient, ← hn, ← cast_u32 den]
  generalize u32 (u32 ((u32 a : Int) - u32 (asr var2 12)) * 3125) = n
  by_cases hlt : n < 0x80000000
  · have hshl : u32 (shl n 1) = 2 * n := by
      rw [shl_one, u32]
      omega
    rw [if_pos hlt, if_pos (by omega), hshl]
    push_cast
    rfl
  · rw [if_neg hlt, if_neg (by omega), cast_u32, Nat.cast_mul, Nat.cast_ofNat, Int.mul_comm, Int.natCast_ediv]

theorem follows_pInt32Tail (adcP : S32) (den var2 : Int) (c : PressureCoeffs) :
    Follows (fun m => pInt32Tail m adcP.toInt den var2 c) (exactPInt32Tail adcP den var2 c).1
      (u32 (exactPInt32Tail adcP den var2 c).2) := by
  simp only [exactPInt32Tail, ← cast_pInt32Quotient, List.all_cons, List.all_nil, pInt32Tail_eq, pInt32Refine, cast_lsr,
    cast_u32, Nat.cast_mul]
  iterate 6 refine follows_ckS32 rfl ?_
  exact follows_pure _

/-- `U32(v)` is the word of `v`, read unsigned (R195). -/
theorem u32_eq_toNat (v : Int) : u32 v = (BitVec.ofInt 32 v).toNat := (BitVec.toNat_ofInt v).symm

theorem ofNat_u32 (v : Int) : BitVec.ofNat 32 (u32 v) = BitVec.ofInt 32 v := by
  rw [u32_eq_toNat, BitVec.ofNat_toNat, BitVec.setWidth_eq]

theorem follows_compPInt32 (adcP tFine : S32) (c : PressureCoeffs) :
    Follows (fun m => compPInt32 m adcP tFine c) (exactPInt32 adcP tFine c).1
      (BitVec.ofInt 32 (exactPInt32 adcP tFine c).2) := by
  simp only [compPInt32_eq_guarded]
  refine follows_guarded (follows_pInt32Head tFine c) fun den var2 => ?_
  rw [← ofNat_u32]
  exact (follows_pInt32Tail adcP den var2 c).map _

/-! ## COMP_P_INT64 -/

theorem follows_pInt64Head (tFine : S32) (c : PressureCoeffs) :
    Follows (fun m => pInt64Head m tFine.toInt c) (exactPInt64Head tFine c).1 (exactPInt64Head tFine c).2 := by
  simp only [pInt64Head, exactPInt64Head, List.all_cons, List.all_nil]
  iterate 4 refine follows_ckS64 rfl ?_
  refine follows_ckS64 (Int.mul_comm ..) ?_
  refine follows_ckS64 rfl ?_
  refine follows_ckS64 (Int.mul_comm ..) ?_
  iterate 3 refine follows_ckS64 rfl ?_
  refine follows_ckS64 (Int.mul_comm ..) ?_
  iterate 3 refine follows_ckS64 rfl ?_
  exact follows_pure _

theorem follows_pInt64Tail (adcP : S32) (den var2 : Int) (c : PressureCoeffs) :
    Follows (fun m => pInt64Tail m adcP.toInt den var2 c) (exactPInt64Tail adcP den var2 c).1
      (exactPInt64Tail adcP den var2 c).2 := by
  simp only [pInt64Tail, exactPInt64Tail, List.all_cons, List.all_nil]
  refine follows_ckS32 rfl ?_
  refine follows_ckS64 (Int.mul_comm ..) ?_
  refine follows_ckS64 rfl ?_
  refine follows_ckS64 (Int.mul_comm ..) ?_
  iterate 6 refine follows_ckS64 rfl ?_
  refine follows_ckS64 (Int.mul_comm ..) ?_
  exact follows_ckS64_last _

theorem follows_compPInt64 (adcP tFine : S32) (c : PressureCoeffs) :
    Follows (fun m => compPInt64 m adcP tFine c) (exactPInt64 adcP tFine c).1
      (BitVec.ofInt 32 (exactPInt64 adcP tFine c).2) := by
  simp only [compPInt64_eq_guarded]
  exact follows_guarded (follows_pInt64Head tFine c) fun den var2 => (follows_pInt64Tail adcP den var2 c).map _

end Sys2Proof.Machine
end

section
/-!
FXP in WRAP mode is two's-complement machine arithmetic (R192): after each checked line the integer is the reading of a word, and
reading a word commutes with the operators of R12 and R193 to R196.
-/

namespace Sys2Proof.Machine

variable {w : Nat}

/-! ## Words under the operators -/

theorem ofInt_sub (x y : Int) : BitVec.ofInt w (x - y) = BitVec.ofInt w x - BitVec.ofInt w y := by
  rw [Int.sub_eq_add_neg, BitVec.ofInt_add, BitVec.ofInt_neg, BitVec.sub_eq_add_neg]

theorem ofInt_shl (x : Int) (k : Nat) : BitVec.ofInt w (shl x k) = BitVec.ofInt w x <<< k := by
  have hpow : BitVec.ofInt w (2 ^ k) = BitVec.twoPow w k := by
    apply BitVec.eq_of_toNat_eq
    rw [BitVec.toNat_ofInt, BitVec.toNat_twoPow]
    norm_cast
  rw [shl, BitVec.ofInt_mul, hpow, BitVec.shiftLeft_eq_mul_twoPow]

theorem asr_toInt (x : BitVec w) (k : Nat) : asr x.toInt k = (x.sshiftRight k).toInt := by
  rw [BitVec.toInt_sshiftRight, Int.shiftRight_eq_div_pow, asr]
  norm_cast

theorem lsr_toNat (x : BitVec w) (k : Nat) : lsr x.toNat k = (x >>> k).toNat := by
  rw [BitVec.toNat_ushiftRight, Nat.shiftRight_eq_div_pow, lsr]

theorem ofInt_sdiv (x y : BitVec w) : BitVec.ofInt w (sdiv x.toInt y.toInt) = x.sdiv y := by
  rw [← BitVec.toInt_inj, BitVec.toInt_ofInt, BitVec.toInt_sdiv, sdiv]

/-- A signed operand in a wider word. -/
theorem ofInt_toInt_signExtend {v : Nat} (x : BitVec v) : BitVec.ofInt w x.toInt = x.signExtend w := rfl

/-- An unsigned operand in a wider word. -/
theorem ofInt_toNat_zeroExtend {v : Nat} (x : BitVec v) : BitVec.ofInt w x.toNat = x.zeroExtend w := by
  rw [BitVec.ofInt_natCast, BitVec.ofNat_toNat]

theorem ofInt_toNat (x : BitVec w) : BitVec.ofInt w x.toNat = x :=
  (ofInt_toNat_zeroExtend x).trans (BitVec.setWidth_eq x)

/-- A line `S32(v)` hands the word of `v` to what follows. -/
theorem ckS32_bind_word {α : Type} (v : Int) (f : Int → Except FaultBit α) :
    (ckS32 .wrap v >>= f) = f (BitVec.ofInt 32 v).toInt := by rw [ckS32_bind_wrap, modS32_eq]

theorem ckS64_bind_word {α : Type} (v : Int) (f : Int → Except FaultBit α) :
    (ckS64 .wrap v >>= f) = f (BitVec.ofInt 64 v).toInt := by rw [ckS64_bind_wrap, modS64_eq]

/-- A line `S64(v)` that is the last one. -/
theorem ckS64_word (v : Int) : ckS64 .wrap v = .ok (BitVec.ofInt 64 v).toInt := by rw [ckS64_wrap, modS64_eq]

/-! ## COMP_T_INT -/

theorem compTIntZ_wrap (adcT : S32) (t1 : U16) (t2 t3 : S16) :
    compTIntZ .wrap adcT.toInt t1.toNat t2.toInt t3.toInt =
      .ok ((wordTInt adcT t1 t2 t3).1.toInt, (wordTInt adcT t1 t2 t3).2.toInt) := by
  simp only [compTIntZ, ckS32_bind_word, BitVec.ofInt_add, BitVec.ofInt_mul, ofInt_sub, ofInt_shl, asr_toInt,
    BitVec.ofInt_toInt, ofInt_toInt_signExtend, ofInt_toNat_zeroExtend, BitVec.ofInt_ofNat]
  rfl

theorem compTInt_wrap (adcT : S32) (t1 : U16) (t2 t3 : S16) :
    compTInt .wrap adcT t1 t2 t3 = .ok (wordTInt adcT t1 t2 t3) := by
  simp only [compTInt_eq_map, compTIntZ_wrap, Except.map, BitVec.ofInt_toInt]

/-! ## The zero guard (R200) -/

theorem guarded_word (den var2 : BitVec w) (tail : Int → Int → Except FaultBit U32) :
    guarded (.ok (den.toInt, var2.toInt)) tail = if den = 0 then .ok 0 else tail den.toInt var2.toInt := by
  have hden : den.toInt = 0 ↔ den = 0#w := by rw [← BitVec.toInt_inj, BitVec.toInt_zero]
  simp only [guarded_ok, hden]
  rfl

/-! ## COMP_P_INT32 -/

/-- The lines of `wordPInt32` up to the zero guard: the denominator and `var2`. -/
def wordPInt32Head (tFine : S32) (c : PressureCoeffs) : S32 × S32 :=
  let s (x : S16) : S32 := x.signExtend 32
  let x := tFine.sshiftRight 1 - 64000
  let q := x.sshiftRight 2 * x.sshiftRight 2
  let y := q.sshiftRight 11 * s c.p6 + (x * s c.p5) <<< 1
  let e := (s c.p3 * q.sshiftRight 13).sshiftRight 3 + (s c.p2 * x).sshiftRight 1
  (((32768 + e.sshiftRight 18) * c.p1.zeroExtend 32).sshiftRight 15, y.sshiftRight 2 + s c.p4 <<< 16)

/-- The division of `wordPInt32` and the lines that lead to it, from `a = 1048576 - adc_P`. -/
def wordPInt32Quotient (a den var2 : S32) : U32 :=
  let n := (a - var2.sshiftRight 12) * 3125
  if n.toNat < 0x80000000 then (n <<< 1) / den else n / den * 2

/-- The lines of `wordPInt32` after the division. -/
def wordPInt32Refine (p : U32) (c : PressureCoeffs) : U32 :=
  let s (x : S16) : S32 := x.signExtend 32
  let r := (p >>> 3 * p >>> 3) >>> 13
  p + ((s c.p9 * r).sshiftRight 12 + (p >>> 2 * s c.p8).sshiftRight 13 + s c.p7).sshiftRight 4

theorem wordPInt32_eq (adcP tFine : S32) (c : PressureCoeffs) :
    wordPInt32 adcP tFine c =
      if (wordPInt32Head tFine c).1 = 0 then 0
      else wordPInt32Refine
        (wordPInt32Quotient (1048576 - adcP) (wordPInt32Head tFine c).1 (wordPInt32Head tFine c).2) c := rfl

theorem pInt32Head_wrap (tFine : S32) (c : PressureCoeffs) :
    pInt32Head .wrap tFine.toInt c = .ok ((wordPInt32Head tFine c).1.toInt, (wordPInt32Head tFine c).2.toInt) := by
  simp only [pInt32Head, ckS32_bind_word, BitVec.ofInt_add, BitVec.ofInt_mul, ofInt_sub, ofInt_shl, asr_toInt,
    BitVec.ofInt_toInt, ofInt_toInt_signExtend, ofInt_toNat_zeroExtend, BitVec.ofInt_ofNat]
  rfl

theorem pInt32Quotient_toInt (a den var2 : S32) :
    pInt32Quotient a.toInt den.toInt var2.toInt = (wordPInt32Quotient a den var2).toNat := by
  simp only [pInt32Quotient, u32_eq_toNat, asr_toInt, Nat.cast_mul, BitVec.ofInt_mul, BitVec.ofInt_toInt, ofInt_sub,
    ofInt_shl, ofInt_toNat, BitVec.ofInt_ofNat, Nat.cast_ofNat, ← BitVec.toNat_udiv]
  exact (apply_ite BitVec.toNat ..).symm

theorem pInt32Refine_wrap (p : U32) (c : PressureCoeffs) :
    pInt32Refine .wrap p.toNat c = .ok (wordPInt32Refine p c).toNat := by
  simp only [pInt32Refine, ckS32_bind_word, modS32_eq, u32_eq_toNat, lsr_toNat, asr_toInt, Nat.cast_mul,
    BitVec.ofInt_add, BitVec.ofInt_mul, ofInt_toNat, BitVec.ofInt_toInt, ofInt_toInt_signExtend]
  rfl

theorem pInt32Tail_wrap (adcP den var2 : S32) (c : PressureCoeffs) :
    pInt32Tail .wrap adcP.toInt den.toInt var2.toInt c =
      .ok (wordPInt32Refine (wordPInt32Quotient (1048576 - adcP) den var2) c).toNat := by
  simp only [pInt32Tail_eq, ckS32_bind_word, ofInt_sub, BitVec.ofInt_toInt, BitVec.ofInt_ofNat, pInt32Quotient_toInt,
    pInt32Refine_wrap]
  rfl

theorem compPInt32_wrap (adcP tFine : S32) (c : PressureCoeffs) :
    compPInt32 .wrap adcP tFine c = .ok (wordPInt32 adcP tFine c) := by
  simp only [compPInt32_eq_guarded, pInt32Head_wrap, guarded_word, pInt32Tail_wrap, Except.map, BitVec.ofNat_toNat,
    BitVec.setWidth_eq, wordPInt32_eq]
  exact (apply_ite Except.ok ..).symm

/-! ## COMP_P_INT64 -/

/-- The lines of `wordPInt64` up to the zero guard: the denominator and `var2`. -/
def wordPInt64Head (tFine : S32) (c : PressureCoeffs) : S64 × S64 :=
  let s (x : S16) : S64 := x.signExtend 64
  let x := tFine.signExtend 64 - 128000
  let q := x * x
  let e := (q * s c.p3).sshiftRight 8 + (x * s c.p2) <<< 12
  ((((1 : S64) <<< 47 + e) * c.p1.zeroExtend 64).sshiftRight 33,
    q * s c.p6 + (x * s c.p5) <<< 17 + s c.p4 <<< 35)

/-- The lines of `wordPInt64` after the guard. -/
def wordPInt64Tail (adcP : S32) (den var2 : S64) (c : PressureCoeffs) : S64 :=
  let s (x : S16) : S64 := x.signExtend 64
  let p := ((((1048576 - adcP).signExtend 64) <<< 31 - var2) * 3125).sdiv den
  let b := p.sshiftRight 13
  (p + (s c.p9 * b * b).sshiftRight 25 + (s c.p8 * p).sshiftRight 19).sshiftRight 8 + s c.p7 <<< 4

theorem wordPInt64_eq (adcP tFine : S32) (c : PressureCoeffs) :
    wordPInt64 adcP tFine c =
      if (wordPInt64Head tFine c).1 = 0 then 0
      else (wordPInt64Tail adcP (wordPInt64Head tFine c).1 (wordPInt64Head tFine c).2 c).truncate 32 := rfl

theorem pInt64Head_wrap (tFine : S32) (c : PressureCoeffs) :
    pInt64Head .wrap tFine.toInt c = .ok ((wordPInt64Head tFine c).1.toInt, (wordPInt64Head tFine c).2.toInt) := by
  simp only [pInt64Head, ckS64_bind_word, BitVec.ofInt_add, BitVec.ofInt_mul, ofInt_sub, ofInt_shl, asr_toInt,
    BitVec.ofInt_toInt, ofInt_toInt_signExtend, ofInt_toNat_zeroExtend, BitVec.ofInt_ofNat]
  rfl

theorem pInt64Tail_wrap (adcP : S32) (den var2 : S64) (c : PressureCoeffs) :
    pInt64Tail .wrap adcP.toInt den.toInt var2.toInt c = .ok (wordPInt64Tail adcP den var2 c).toInt := by
  simp only [pInt64Tail, ckS32_bind_word, ckS64_bind_word, BitVec.ofInt_add, BitVec.ofInt_mul, ofInt_sub, ofInt_shl,
    asr_toInt, ofInt_sdiv, BitVec.ofInt_toInt, ofInt_toInt_signExtend, BitVec.ofInt_ofNat]
  rw [ckS64_word, BitVec.ofInt_add, BitVec.ofInt_toInt, BitVec.ofInt_toInt]
  rfl

theorem compPInt64_wrap (adcP tFine : S32) (c : PressureCoeffs) :
    compPInt64 .wrap adcP tFine c = .ok (wordPInt64 adcP tFine c) := by
  simp only [compPInt64_eq_guarded, pInt64Head_wrap, guarded_word, pInt64Tail_wrap, Except.map, ofInt_toInt_signExtend,
    wordPInt64_eq]
  rw [BitVec.signExtend_eq_setWidth_of_le _ (by decide)]
  exact (apply_ite Except.ok ..).symm

end Sys2Proof.Machine
end

section
/-!
What the integer operations answer (R190, R192, R250), with a zero denominator (R200), and the ranges of their lines: COMP_T_INT's on
20-bit raw values (R197), the window of COMP_P_INT32 (R198) and CAL-1 (R199, R203).
-/

namespace Sys2Proof.Machine

variable {s : State} {i : Instr}

/-! ## The operations as instructions -/

theorem exec_compTInt (adcT : S32) (t1 : U16) (t2 t3 : S16) (s : State) :
    exec (.compTInt adcT t1 t2 t3) s =
      finishOp ((compTInt s.cfg.overflowMode adcT t1 t2 t3).map fun r => .tempInt r.1 r.2) s := rfl

theorem exec_compPInt32 (adcP tFine : S32) (c : PressureCoeffs) (s : State) :
    exec (.compPInt32 adcP tFine c) s = finishOp ((compPInt32 s.cfg.overflowMode adcP tFine c).map .pressInt) s := rfl

theorem exec_compPInt64 (adcP tFine : S32) (c : PressureCoeffs) (s : State) :
    exec (.compPInt64 adcP tFine c) s = finishOp ((compPInt64 s.cfg.overflowMode adcP tFine c).map .pressInt) s := rfl

/-- An operation that overflows raises ARITH_OVERFLOW and writes nothing else (R190, R250). -/
theorem finishOp_overflow (hf : s.faults = 0) : finishOp (.error .arithOverflow) s = .next { s with faults := 0x20 } := by
  rw [finishOp_error hf, State.raise, hf]
  rfl

section
variable {r : OverflowMode → Except FaultBit OpResult} {ok : Bool} {v : OpResult}

theorem finishOp_of_inRange (hr : Follows r ok v) (hf : s.faults = 0) (hok : ok = true) :
    finishOp (r s.cfg.overflowMode) s = .next { s with opResult := some v } := by
  rw [hr.inRange hok, finishOp_ok hf]

theorem finishOp_of_overflow (hr : Follows r ok v) (hf : s.faults = 0) (hok : ok = false)
    (hm : s.cfg.overflowMode = .fault) : finishOp (r s.cfg.overflowMode) s = .next { s with faults := 0x20 } := by
  rw [hm, hr.overflow hok, finishOp_overflow hf]

/-- R192: the exact value of the lines or ARITH_OVERFLOW, and what WRAP mode has to do with it. -/
theorem answer_or_overflow (hexec : ∀ s, exec i s = finishOp (r s.cfg.overflowMode) s) (hr : Follows r ok v)
    {x : OpResult} (hwrap : r .wrap = .ok x) (hf : s.faults = 0) :
    let w : State := { s with cfg := { s.cfg with overflowMode := .wrap } }
    (ok = true → exec i s = .next { s with opResult := some v }) ∧
    (ok = false → s.cfg.overflowMode = .fault → exec i s = .next { s with faults := 0x20 }) ∧
    ∃ v, exec i w = .next { w with opResult := some v } ∧
      (exec i s = .next { s with opResult := some v } ∨
        (s.cfg.overflowMode = .fault ∧ ok = false ∧ exec i s = .next { s with faults := 0x20 })) := by
  intro w
  have hw : exec i w = .next { w with opResult := some x } := by
    rw [hexec]
    exact (congrArg (finishOp · w) hwrap).trans (finishOp_ok hf)
  refine ⟨fun h => (hexec s).trans (finishOp_of_inRange hr hf h),
    fun h hm => (hexec s).trans (finishOp_of_overflow hr hf h hm), x, hw, ?_⟩
  cases hm : s.cfg.overflowMode with
  | wrap => exact .inl (by rw [hexec, hm, hwrap, finishOp_ok hf])
  | fault =>
    cases ok with
    | true =>
      obtain rfl : v = x := Except.ok.inj ((hr.inRange rfl .wrap).symm.trans hwrap)
      exact .inl ((hexec s).trans (finishOp_of_inRange hr hf rfl))
    | false => exact .inr ⟨rfl, rfl, (hexec s).trans (finishOp_of_overflow hr hf rfl hm)⟩

end

/-! ## A zero denominator (R200) -/

theorem exactPInt32Head_den_of_p1 (tFine : S32) {c : PressureCoeffs} (h : c.p1 = 0) :
    (exactPInt32Head tFine c).2.1 = 0 := by simp [exactPInt32Head, h, asr]

theorem exactPInt64Head_den_of_p1 (tFine : S32) {c : PressureCoeffs} (h : c.p1 = 0) :
    (exactPInt64Head tFine c).2.1 = 0 := by simp [exactPInt64Head, h, asr]

theorem wordPInt32Head_den_of_p1 (tFine : S32) {c : PressureCoeffs} (h : c.p1 = 0) :
    (wordPInt32Head tFine c).1 = 0 := by simp [wordPInt32Head, h]

theorem wordPInt64Head_den_of_p1 (tFine : S32) {c : PressureCoeffs} (h : c.p1 = 0) :
    (wordPInt64Head tFine c).1 = 0 := by simp [wordPInt64Head, h]

/-- An operation whose lines before the guard, in either mode, can only give a zero denominator. -/
theorem zero_or_overflow {w : Nat} {head : OverflowMode → Except FaultBit (Int × Int)}
    {tail : OverflowMode → Int → Int → Except FaultBit U32} {e : Bool × Int × Int} {x : BitVec w × BitVec w}
    (hexec : ∀ s, exec i s =
      finishOp ((guarded (head s.cfg.overflowMode) (tail s.cfg.overflowMode)).map .pressInt) s)
    (hhead : Follows head e.1 e.2) (hwrap : head .wrap = .ok (x.1.toInt, x.2.toInt)) (he : e.2.1 = 0) (hx : x.1 = 0)
    (hf : s.faults = 0) :
    (∀ v, head s.cfg.overflowMode = .ok v → exec i s = .next { s with opResult := some (.pressInt 0) }) ∧
    (head s.cfg.overflowMode = .error .arithOverflow → exec i s = .next { s with faults := 0x20 }) ∧
    (e.1 = true ∨ s.cfg.overflowMode = .wrap → ∃ v, head s.cfg.overflowMode = .ok v) ∧
    (e.1 = false → s.cfg.overflowMode = .fault → head s.cfg.overflowMode = .error .arithOverflow) := by
  have hzero : ∀ v, head s.cfg.overflowMode = .ok v → v.1 = 0 := by
    intro v hv
    cases hm : s.cfg.overflowMode with
    | wrap =>
      obtain rfl := Except.ok.inj (hwrap.symm.trans (hm ▸ hv))
      simp [hx]
    | fault =>
      cases hok : e.1 with
      | true => rwa [← Except.ok.inj ((hhead.inRange hok _).symm.trans hv)]
      | false => exact absurd ((hhead.overflow hok).symm.trans (hm ▸ hv)) (by simp)
  refine ⟨fun v hv => ?_, fun herror => ?_, ?_, fun hok hm => hm ▸ hhead.overflow hok⟩
  · obtain ⟨den, var2⟩ := v
    rw [hexec, hv, guarded_ok, if_pos (hzero _ hv)]
    exact finishOp_ok hf
  · rw [hexec, herror, guarded_error]
    exact finishOp_overflow hf
  · rintro (hok | hm)
    · exact ⟨_, hhead.inRange hok _⟩
    · exact ⟨_, hm ▸ hwrap⟩

/-! ## The ranges of COMP_T_INT -/

theorem adcInRange_toInt {a : S32} (h : adcInRange a = true) : 0 ≤ a.toInt ∧ a.toInt < 1048576 := by
  have hlt : a.toNat < 2 ^ 20 := of_decide_eq_true h
  rw [BitVec.toInt_eq_toNat_of_lt (by omega)]
  omega

/-- R197: on a 20-bit raw value only three products can leave s32. -/
theorem exactTInt_inRange {adcT : S32} {t1 : U16} {t2 t3 : S16} (ha : adcInRange adcT = true)
    (h1 : inS32 ((asr adcT.toInt 3 - 2 * t1.toNat) * t2.toInt) = true)
    (h2 : inS32 ((asr adcT.toInt 4 - t1.toNat) * (asr adcT.toInt 4 - t1.toNat)) = true)
    (h3 : inS32 (asr ((asr adcT.toInt 4 - t1.toNat) * (asr adcT.toInt 4 - t1.toNat)) 12 * t3.toInt) = true) :
    (exactTInt adcT t1 t2 t3).1 = true := by
  have hlt := t1.isLt
  have hadc := adcInRange_toInt ha
  simp only [exactTInt, List.all_cons, List.all_nil, h1, h2, h3, Bool.true_and, Bool.and_true, Bool.and_eq_true]
  simp only [inS32_iff] at h1 h3 ⊢
  generalize (asr adcT.toInt 3 - 2 * (t1.toNat : Int)) * t2.toInt = v1b at *
  generalize asr ((asr adcT.toInt 4 - (t1.toNat : Int)) * (asr adcT.toInt 4 - t1.toNat)) 12 * t3.toInt = v2d at *
  unfold asr
  omega

/-- Where no line of COMP_T_INT overflows, `t_fine` and `T` are far inside s32. -/
theorem exactTInt_bounds {adcT : S32} {t1 : U16} {t2 t3 : S16} (h : (exactTInt adcT t1 t2 t3).1 = true) :
    (-1179648 ≤ (exactTInt adcT t1 t2 t3).2.1 ∧ (exactTInt adcT t1 t2 t3).2.1 ≤ 1179648) ∧
    (-23040 ≤ (exactTInt adcT t1 t2 t3).2.2 ∧ (exactTInt adcT t1 t2 t3).2.2 ≤ 23040) := by
  simp only [exactTInt, List.all_cons, List.all_nil, Bool.and_true, Bool.and_eq_true, inS32_iff] at h ⊢
  obtain ⟨-, -, hv1b, -, -, hv2d, -⟩ := h
  generalize (asr adcT.toInt 3 - 2 * (t1.toNat : Int)) * t2.toInt = v1b at *
  generalize asr ((asr adcT.toInt 4 - (t1.toNat : Int)) * (asr adcT.toInt 4 - t1.toNat)) 12 * t3.toInt = v2d at *
  unfold asr
  omega

/-! ## Products and quotients of bounded integers -/

theorem mul_bounds {x y a b : Int} (hx : -a ≤ x ∧ x ≤ a) (hy : -b ≤ y ∧ y ≤ b) : -(a * b) ≤ x * y ∧ x * y ≤ a * b := by
  rw [← abs_le] at *
  rw [abs_mul]
  exact mul_le_mul hx hy (abs_nonneg y) ((abs_nonneg x).trans hx)

theorem natAbs_sdiv_le {n d : Int} {a b : Nat} (hn : n.natAbs ≤ a) (hd : b ≤ d.natAbs) (hb : b ≠ 0) :
    (sdiv n d).natAbs ≤ a / b := by
  rw [sdiv, Int.natAbs_tdiv]
  exact Nat.div_le_div hn hd hb

theorem toInt_ofInt_of_inS32 {v : Int} (h : inS32 v = true) : (BitVec.ofInt 32 v).toInt = v := by
  rw [← modS32_eq, modS32_of_inS32 h]

/-! ## The window of COMP_P_INT32 (R198) -/

/-- Outside the window the square `q` leaves s32. -/
theorem exactPInt32Head_overflow {tFine : S32} (c : PressureCoeffs)
    (h : tFine.toInt < -242720 ∨ 498727 < tFine.toInt) : (exactPInt32Head tFine c).1 = false := by
  have hfar : asr (asr tFine.toInt 1 - 64000) 2 ≤ -46341 ∨ 46341 ≤ asr (asr tFine.toInt 1 - 64000) 2 := by
    unfold asr
    omega
  refine Bool.eq_false_iff.2 fun hok => ?_
  simp only [exactPInt32Head, List.all_cons, Bool.and_eq_true] at hok
  obtain ⟨-, hq, -⟩ := hok
  have := (inS32_iff.1 hq).2
  rcases hfar with hfar | hfar <;> nlinarith

/-- Inside it the first line and the square stay in s32. -/
theorem square_inS32_of_window {t : Int} (h0 : -242720 ≤ t) (h1 : t ≤ 498727) :
    inS32 (asr t 1 - 64000) = true ∧ inS32 (asr (asr t 1 - 64000) 2 * asr (asr t 1 - 64000) 2) = true := by
  have hx : inS32 (asr t 1 - 64000) = true := inS32_iff.2 (by unfold asr; omega)
  have hnear : -46340 ≤ asr (asr t 1 - 64000) 2 ∧ asr (asr t 1 - 64000) 2 ≤ 46340 := by
    unfold asr
    omega
  have hq := mul_bounds hnear hnear
  exact ⟨hx, inS32_iff.2 (by omega)⟩

/-! ## CAL-1 (R199, R203) -/

/-- R203's pressure coefficients. -/
def cal1Pressure : PressureCoeffs := ⟨36477, -10685, 3024, 2855, 140, -7, 15500, -14600, 6000⟩

theorem cal1_exactTInt_inRange {adcT : S32} (ha : adcInRange adcT = true) :
    (exactTInt adcT 27504 26435 (-1000)).1 = true := by
  have hadc := adcInRange_toInt ha
  have ht1 : ((27504 : U16).toNat : Int) = 27504 := by decide
  have ht2 : (26435 : S16).toInt = 26435 := by decide
  have ht3 : (-1000 : S16).toInt = -1000 := by decide
  have hv2a : -38032 ≤ asr adcT.toInt 4 - 27504 ∧ asr adcT.toInt 4 - 27504 ≤ 38032 := by
    unfold asr
    omega
  have hv2b := mul_bounds hv2a hv2a
  apply exactTInt_inRange ha <;> rw [inS32_iff, ht1]
  · rw [ht2]
    unfold asr
    omega
  · omega
  · rw [ht3]
    generalize (asr adcT.toInt 4 - 27504) * (asr adcT.toInt 4 - 27504) = v2b at *
    unfold asr
    omega

/-- Before the guard nothing overflows, the denominator is large and `var2` is small. -/
theorem cal1_head {tFine : S32} (h : -1179648 ≤ tFine.toInt ∧ tFine.toInt ≤ 1179648) :
    (exactPInt64Head tFine cal1Pressure).1 = true ∧ 350000000 ≤ (exactPInt64Head tFine cal1Pressure).2.1 ∧
    -140000000000000 ≤ (exactPInt64Head tFine cal1Pressure).2.2 ∧
    (exactPInt64Head tFine cal1Pressure).2.2 ≤ 140000000000000 := by
  have hx : -1307648 ≤ tFine.toInt - 128000 ∧ tFine.toInt - 128000 ≤ 1307648 := by omega
  have hq := mul_bounds hx hx
  have hq0 := mul_self_nonneg (tFine.toInt - 128000)
  have h1 : (cal1Pressure.p1.toNat : Int) = 36477 := by decide
  have h2 : cal1Pressure.p2.toInt = -10685 := by decide
  have h3 : cal1Pressure.p3.toInt = 3024 := by decide
  have h4 : cal1Pressure.p4.toInt = 2855 := by decide
  have h5 : cal1Pressure.p5.toInt = 140 := by decide
  have h6 : cal1Pressure.p6.toInt = -7 := by decide
  simp only [exactPInt64Head, h1, h2, h3, h4, h5, h6, List.all_cons, List.all_nil, Bool.and_true, Bool.and_eq_true,
    inS64_iff]
  generalize (tFine.toInt - 128000) * (tFine.toInt - 128000) = q at *
  unfold asr
  omega

/-- After such a head nothing overflows either. -/
theorem cal1_tail {adcP : S32} {den var2 : Int} (ha : adcInRange adcP = true) (hden : 350000000 ≤ den)
    (hv0 : -140000000000000 ≤ var2) (hv1 : var2 ≤ 140000000000000) :
    (exactPInt64Tail adcP den var2 cal1Pressure).1 = true := by
  have hadc := adcInRange_toInt ha
  have hp : (sdiv (3125 * (2 ^ 31 * (1048576 - adcP.toInt) - var2)) den).natAbs ≤ 7500000000000000000 / 350000000 :=
    natAbs_sdiv_le (by omega) (by omega) (by decide)
  have h7 : cal1Pressure.p7.toInt = 15500 := by decide
  have h8 : cal1Pressure.p8.toInt = -14600 := by decide
  have h9 : cal1Pressure.p9.toInt = 6000 := by decide
  simp only [exactPInt64Tail, h7, h8, h9, List.all_cons, List.all_nil, Bool.and_true, Bool.and_eq_true, inS64_iff,
    inS32_iff]
  generalize sdiv (3125 * (2 ^ 31 * (1048576 - adcP.toInt) - var2)) den = p at *
  have hb : -2700000 ≤ asr p 13 ∧ asr p 13 ≤ 2700000 := by
    unfold asr
    omega
  have hx : -16200000000 ≤ 6000 * asr p 13 ∧ 6000 * asr p 13 ≤ 16200000000 := by omega
  have hxb := mul_bounds hx hb
  generalize 6000 * asr p 13 * asr p 13 = y at *
  unfold asr at *
  omega

theorem cal1_exactPInt64_inRange {adcP tFine : S32} (ha : adcInRange adcP = true)
    (h : -1179648 ≤ tFine.toInt ∧ tFine.toInt ≤ 1179648) : (exactPInt64 adcP tFine cal1Pressure).1 = true := by
  obtain ⟨hok, hden, hv0, hv1⟩ := cal1_head h
  rw [exactPInt64, exactGuarded, if_neg (by omega), hok, cal1_tail ha hden hv0 hv1, Bool.and_true]

end Sys2Proof.Machine
end

section
/-! The statements of 42_compensation_int.md, settled. -/

namespace Sys2Proof.Machine

/-- Settles O43: in the three products' ranges every line is in range, and the lines' exact values are the formula's. -/
theorem compTIntFormula : Obligations.CompTIntFormula := by
  intro adcT t1 t2 t3 s hf ha v1b v2a v2d tFine h1 h2 h3
  have hT : tFine * 5 = 5 * tFine := Int.mul_comm ..
  rw [exec_compTInt, hT]
  exact finishOp_of_inRange ((follows_compTInt adcT t1 t2 t3).map _) hf (exactTInt_inRange ha h1 h2 h3)

/-- Settles O44: each operation's lines follow the exact lines, and give a machine word in WRAP mode. -/
theorem integerOpsAnswerOrOverflow : Obligations.IntegerOpsAnswerOrOverflow := by
  intro s adc tFine t1 t2 t3 c hf
  simp only [List.forall_mem_cons]
  refine ⟨?_, ?_, ?_, List.forall_mem_nil _⟩
  · exact answer_or_overflow (r := fun m => (compTInt m adc t1 t2 t3).map fun r => .tempInt r.1 r.2)
      (exec_compTInt adc t1 t2 t3) ((follows_compTInt adc t1 t2 t3).map _)
      (congrArg (Except.map _) (compTInt_wrap adc t1 t2 t3)) hf
  · exact answer_or_overflow (exec_compPInt32 adc tFine c) ((follows_compPInt32 adc tFine c).map _)
      (congrArg (Except.map _) (compPInt32_wrap adc tFine c)) hf
  · exact answer_or_overflow (exec_compPInt64 adc tFine c) ((follows_compPInt64 adc tFine c).map _)
      (congrArg (Except.map _) (compPInt64_wrap adc tFine c)) hf

/-- Settles O45, line by line (`compTIntZ_wrap`). -/
theorem compTIntWrapIsMachineArithmetic : Obligations.CompTIntWrapIsMachineArithmetic := by
  intro adcT t1 t2 t3 s hf hm
  rw [exec_compTInt, hm, compTInt_wrap]
  exact finishOp_ok hf

/-- Settles O46: the lines before the guard, the guard and the lines after it, each on words. -/
theorem compPInt32WrapIsMachineArithmetic : Obligations.CompPInt32WrapIsMachineArithmetic := by
  intro adcP tFine c s hf hm
  rw [exec_compPInt32, hm, compPInt32_wrap]
  exact finishOp_ok hf

/-- Settles O47 in the same way. -/
theorem compPInt64WrapIsMachineArithmetic : Obligations.CompPInt64WrapIsMachineArithmetic := by
  intro adcP tFine c s hf hm
  rw [exec_compPInt64, hm, compPInt64_wrap]
  exact finishOp_ok hf

/-- Settles O48: with P1 = 0 the denominator's last product is 0 in both modes. -/
theorem zeroP1GivesZeroPressure : Obligations.ZeroP1GivesZeroPressure := by
  intro adcP tFine c s hf hp1
  simp only [List.forall_mem_cons]
  refine ⟨?_, ?_, List.forall_mem_nil _⟩
  · exact zero_or_overflow (head := fun m => pInt32Head m tFine.toInt c)
      (tail := fun m den var2 => (pInt32Tail m adcP.toInt den var2 c).map (BitVec.ofNat 32))
      (fun s => by rw [exec_compPInt32, compPInt32_eq_guarded]) (follows_pInt32Head tFine c) (pInt32Head_wrap tFine c)
      (exactPInt32Head_den_of_p1 tFine hp1) (wordPInt32Head_den_of_p1 tFine hp1) hf
  · exact zero_or_overflow (head := fun m => pInt64Head m tFine.toInt c)
      (tail := fun m den var2 => (pInt64Tail m adcP.toInt den var2 c).map (BitVec.ofInt 32))
      (fun s => by rw [exec_compPInt64, compPInt64_eq_guarded]) (follows_pInt64Head tFine c) (pInt64Head_wrap tFine c)
      (exactPInt64Head_den_of_p1 tFine hp1) (wordPInt64Head_den_of_p1 tFine hp1) hf

/-- Settles O49: the square `q` leaves s32 exactly where `|asr(var1, 2)|` is above 46340. -/
theorem compPInt32OverflowWindow : Obligations.CompPInt32OverflowWindow := by
  intro adcP tFine c s hf hm
  refine ⟨fun h => ?_, square_inS32_of_window⟩
  rw [exec_compPInt32]
  exact finishOp_of_overflow ((follows_compPInt32 adcP tFine c).map _) hf
    (exactGuarded_of_head (exactPInt32Head_overflow c h)) hm

/-- Settles O50: COMP_T_INT's fine temperature is small enough for every line of COMP_P_INT64. -/
theorem cal1NeverOverflows : Obligations.Cal1NeverOverflows := by
  intro adcT adcP s hf haT haP c
  have hT := cal1_exactTInt_inRange haT
  obtain ⟨hfine, htemp⟩ := exactTInt_bounds hT
  have hfineS32 : inS32 (exactTInt adcT 27504 26435 (-1000)).2.1 = true := inS32_iff.2 (by omega)
  have htempS32 : inS32 (exactTInt adcT 27504 26435 (-1000)).2.2 = true := inS32_iff.2 (by omega)
  have hfineInt := toInt_ofInt_of_inS32 hfineS32
  refine ⟨_, _, hfineInt, toInt_ofInt_of_inS32 htempS32, ?_, ?_⟩
  · exact finishOp_of_inRange ((follows_compTInt adcT 27504 26435 (-1000)).map _) hf hT
  · exact finishOp_of_inRange ((follows_compPInt64 adcP _ cal1Pressure).map _) hf
      (cal1_exactPInt64_inRange haP (by rwa [hfineInt]))

end Sys2Proof.Machine
end

section
/-!
The ranges of the floating-point lines (R223, R225, R227): the operands and constants of FPC as bounded binary64 numbers, the sum
of COMP_T_FLT and its truncation (R221), and the denominator of COMP_P_FLT with P1 = 0 (R226).
-/

namespace Sys2Proof.Machine

variable {s : State}

/-! ## The operations as instructions -/

theorem exec_compTFlt (adcT : S32) (t1 : U16) (t2 t3 : S16) (s : State) :
    exec (.compTFlt adcT t1 t2 t3) s =
      finishOp ((compTFlt s.cfg.floatTfineKind adcT t1 t2 t3).map fun r => .tempFlt r.1 r.2) s := rfl

/-- COMP_P_FLT has no fault of its own (R225, R226). -/
theorem exec_compPFlt (adcP : S32) (tf : F64) (c : PressureCoeffs) (hf : s.faults = 0) :
    exec (.compPFlt adcP tf c) s = .next { s with opResult := some (.pressFlt (compPFlt adcP tf c)) } := finishOp_ok hf

/-! ## Operands and constants -/

theorem f64OfInt_toInt_le {w : Nat} (x : BitVec (w + 1)) (hw : w ≤ 1022) : f64Le (f64OfInt x.toInt) w := by
  have hlo := x.le_toInt
  have hhi := x.toInt_lt
  rw [Nat.add_sub_cancel] at hlo hhi
  refine f64OfInt_le _ w hw ?_
  zify
  exact abs_le.2 ⟨hlo, hhi.le⟩

theorem f64OfInt_toNat_le {w : Nat} (x : BitVec w) (hw : w ≤ 1022) : f64Le (f64OfInt x.toNat) w :=
  f64OfInt_le _ w hw (by simpa using x.isLt.le)

/-- R13: the conversion of a power of two has an empty fraction. -/
theorem f64OfInt_two_pow {j : Nat} (hj : j ≤ 52) : f64OfInt (2 ^ j) = f64Pack false ((j + 1023) * 2 ^ 52) := by
  have habs : ((2 : Int) ^ j).natAbs = 2 ^ j := Int.natAbs_pow 2 j
  have hneg : decide ((2 : Int) ^ j < 0) = false := decide_eq_false (not_lt.2 (by positivity))
  have hpow : roundPow (2 ^ j) 0 = j - 52 := by
    rw [roundPow, Nat.log2_two_pow]
    omega
  have hsig : 2 ^ j * 2 ^ (52 - j) = 2 ^ 52 := by rw [← pow_add, Nat.add_sub_cancel' hj]
  have hbits : roundBits (2 ^ j) 0 false = min f64InfBits ((j + 1022) * 2 ^ 52 + 2 ^ 52) := by
    rw [roundBits, if_neg (by positivity), hpow, show ((j : Int) - 52 + 1074).toNat = j + 1022 by omega,
      show (0 - ((j : Int) - 52)).toNat = 52 - j by omega, show ((j : Int) - 52 - 0).toNat = 0 by omega, hsig, roundShift,
      if_pos rfl]
  rw [f64OfInt, f64Round, hneg, habs, hbits, Nat.min_eq_right (by rw [f64InfBits]; omega), ← Nat.add_one_mul]

theorem isPow2_ofInt {n : Int} {j : Nat} (hn : n = 2 ^ j) (hj : j ≤ 52) : IsPow2 (f64OfInt n) j := by
  obtain ⟨hexp, hfrac, -⟩ := f64Pack_fields false (j + 1023) 0 (by omega) (by norm_num)
  rw [Nat.add_zero, ← f64OfInt_two_pow hj, ← hn] at hexp hfrac
  have hnormal : f64Exp (f64OfInt n) ≠ 0 := by omega
  refine ⟨?_, ?_, by omega⟩
  · rw [f64Sig, if_neg hnormal, hfrac, Nat.add_zero]
  · rw [f64Pow, if_neg hnormal]
    omega

/-! ## The sum of COMP_T_FLT (R223) -/

/-- R227: the sum stays far inside s32. -/
theorem tFltSum_le {adcT : S32} (t1 : U16) (t2 t3 : S16) (ha : adcInRange adcT = true) :
    f64Le (tFltSum adcT t1 t2 t3) 24 := by
  have hadcInt := adcInRange_toInt ha
  have hadc : f64Le (f64OfInt adcT.toInt) 20 := f64OfInt_le _ 20 (by decide) (by omega)
  have ht1 : f64Le (f64OfInt t1.toNat) 16 := f64OfInt_toNat_le t1 (by decide)
  have ht2 : f64Le (f64OfInt t2.toInt) 15 := f64OfInt_toInt_le t2 (by decide)
  have ht3 : f64Le (f64OfInt t3.toInt) 15 := f64OfInt_toInt_le t3 (by decide)
  have hx1 : f64Le (f64Div (f64OfInt adcT.toInt) (f64OfInt 16384)) 6 :=
    f64Div_le hadc (isPow2_ofInt (j := 14) rfl (by decide)) (by decide) (by decide)
  have hx2 : f64Le (f64Div (f64OfInt t1.toNat) (f64OfInt 1024)) 6 :=
    f64Div_le ht1 (isPow2_ofInt (j := 10) rfl (by decide)) (by decide) (by decide)
  have hy1 : f64Le (f64Div (f64OfInt adcT.toInt) (f64OfInt 131072)) 3 :=
    f64Div_le hadc (isPow2_ofInt (j := 17) rfl (by decide)) (by decide) (by decide)
  have hy2 : f64Le (f64Div (f64OfInt t1.toNat) (f64OfInt 8192)) 3 :=
    f64Div_le ht1 (isPow2_ofInt (j := 13) rfl (by decide)) (by decide) (by decide)
  have hvar1 := f64Mul_le (f64Sub_le (K := 7) hx1 hx2 (by decide) (by decide) (by decide)) ht2 (by decide) (by decide)
  have hd := f64Sub_le (K := 4) hy1 hy2 (by decide) (by decide) (by decide)
  have hvar2 := f64Mul_le (f64Mul_le hd hd (by decide) (by decide)) ht3 (by decide) (by decide)
  exact f64Add_le hvar1 hvar2 (by decide) (by decide) (by decide)

/-- Truncation toward zero does not pass the magnitude (R221). -/
theorem f64TruncInt_natAbs_le (x : F64) : ((f64TruncInt x).natAbs : ℚ) ≤ f64Abs x := by
  have hnat : (f64TruncInt x).natAbs = f64Sig x * 2 ^ (f64Pow x).toNat / 2 ^ (-f64Pow x).toNat := by
    unfold f64TruncInt
    split
    · exact (Int.natAbs_neg _).trans (Int.natAbs_natCast _)
    · exact Int.natAbs_natCast _
  have hpow : ((f64Pow x).toNat : Int) - ((-f64Pow x).toNat : Int) = f64Pow x := by omega
  calc ((f64TruncInt x).natAbs : ℚ)
      ≤ ((f64Sig x * 2 ^ (f64Pow x).toNat : Nat) : ℚ) / ((2 ^ (-f64Pow x).toNat : Nat) : ℚ) := by
        rw [hnat]
        exact Nat.cast_div_le
    _ = f64Abs x := by
        rw [f64Abs, ← hpow, zpow_sub₀ two_ne_zero, hpow]
        push_cast
        rw [zpow_natCast, zpow_natCast, mul_div_assoc]

/-- `trunc_s32` answers on a number of magnitude at most `2 ^ 30` (R221). -/
theorem truncS32_of_le {x : F64} {K : Int} (h : f64Le x K) (hK : K ≤ 30) :
    truncS32 x = .ok (BitVec.ofInt 32 (f64TruncInt x)) := by
  have habs : ((f64TruncInt x).natAbs : ℚ) ≤ 2 ^ (30 : Int) :=
    (f64TruncInt_natAbs_le x).trans ((f64Abs_le h).trans (zpow_le_zpow_right₀ (by norm_num) hK))
  have hnat : (f64TruncInt x).natAbs ≤ 2 ^ 30 := by exact_mod_cast habs
  exact truncS32_of_fits (f64Le_finite h).ne (by omega) (by omega)

/-- The fine temperature of a sum that is an s32 once truncated, by its kind (R224). -/
def tFineKept (kind : FloatTfineKind) (sum : F64) : TfineF :=
  match kind with
  | .truncS32 => .s32 (BitVec.ofInt 32 (f64TruncInt sum))
  | .binary64 => .f64 sum

/-- R223, R224: COMP_T_FLT answers in both kinds. -/
theorem compTFlt_ok (kind : FloatTfineKind) {adcT : S32} (t1 : U16) (t2 t3 : S16) (ha : adcInRange adcT = true) :
    compTFlt kind adcT t1 t2 t3 =
      .ok (tFineKept kind (tFltSum adcT t1 t2 t3), f64Div (tFltSum adcT t1 t2 t3) (f64OfInt 5120)) := by
  cases kind with
  | binary64 => rfl
  | truncS32 => rw [compTFlt, tFineOfSum, truncS32_of_le (tFltSum_le t1 t2 t3 ha) (by decide), tFineKept]

/-! ## The denominator of COMP_P_FLT (R225) -/

/-- Every fine temperature TFINE_F can hold is at most `2 ^ 31` (R224). -/
theorem tfineFValue_le {tf : TfineF} (h : TfineFBounded tf) : f64Le (tfineFValue tf) 31 := by
  cases tf with
  | s32 v => exact f64OfInt_toInt_le v (by decide)
  | f64 x =>
    obtain ⟨-, hx⟩ := h
    exact f64Le_of_value (by decide) (by decide) (hx.trans (by norm_num))

/-- R227: the first factor of the denominator is finite. -/
theorem pFltDenominator_factor_le {tf : F64} (c : PressureCoeffs) (h : f64Le tf 31) :
    ∃ x, f64Le x 26 ∧ pFltDenominator tf c = f64Mul x (f64OfInt c.p1.toNat) := by
  have hp2 : f64Le (f64OfInt c.p2.toInt) 15 := f64OfInt_toInt_le c.p2 (by decide)
  have hp3 : f64Le (f64OfInt c.p3.toInt) 15 := f64OfInt_toInt_le c.p3 (by decide)
  have hpow19 : IsPow2 (f64OfInt 524288) 19 := isPow2_ofInt (j := 19) rfl (by decide)
  have hvar1 : f64Le (pFltVar1 tf) 31 :=
    f64Sub_le (f64Div_le h (isPow2_ofInt (j := 1) rfl (by decide)) (by decide) (by decide))
      (f64OfInt_le 64000 16 (by decide) (by decide)) (by decide) (by decide) (by decide)
  have ha := f64Div_le (f64Mul_le (f64Mul_le hp3 hvar1 (by decide) (by decide)) hvar1 (by decide) (by decide)) hpow19
    (by decide) (by decide)
  have hsum := f64Add_le (K := 59) ha (f64Mul_le hp2 hvar1 (by decide) (by decide)) (by decide) (by decide) (by decide)
  have hvar1' := f64Div_le (f64Div_le hsum hpow19 (by decide) (by decide)) (isPow2_ofInt (n := 32768) (j := 15) rfl (by decide))
    (by decide) (by decide)
  exact ⟨_, f64Add_le (f64OfInt_le 1 0 (by decide) (by decide)) hvar1' (by decide) (by decide) (by decide), rfl⟩

/-- A finite number times `f64(0)` is a zero, of either sign. -/
theorem f64IsZero_mul_zero {x : F64} {K : Int} (h : f64Le x K) : f64IsZero (f64Mul x (f64OfInt 0)) = true := by
  have h0 : f64Le (f64OfInt 0) 0 := f64OfInt_le 0 0 (by decide) (by decide)
  have hsig : f64Sig (f64OfInt 0) = 0 := by decide
  have hmul : f64Mul x (f64OfInt 0) =
      f64Round (x.msb != (f64OfInt 0).msb) (f64Sig x * f64Sig (f64OfInt 0)) (f64Pow x + f64Pow (f64OfInt 0)) false := by
    simp [f64Mul, f64Le_notNaN h, f64Le_notNaN h0, f64Le_notInf h, f64Le_notInf h0]
  have hmag : f64Mag (f64Mul x (f64OfInt 0)) = 0 := by
    rw [hmul, f64Mag_round, hsig, Nat.mul_zero, roundBits, if_pos rfl]
  exact beq_iff_eq.2 hmag

theorem f64IsZero_pFltDenominator_of_p1 {tf : F64} {c : PressureCoeffs} (h : f64Le tf 31) (hp1 : c.p1 = 0) :
    f64IsZero (pFltDenominator tf c) = true := by
  obtain ⟨x, hx, hden⟩ := pFltDenominator_factor_le c h
  rw [hden, hp1]
  exact f64IsZero_mul_zero hx

end Sys2Proof.Machine
end

section
/-! The statements of 43_compensation_float.md, settled. -/

namespace Sys2Proof.Machine

/-- Settles O52: the sum is far inside s32 (`tFltSum_le`), so its truncation answers. -/
theorem compTFltNeverFaults : Obligations.CompTFltNeverFaults := by
  intro adcT t1 t2 t3 s hf ha
  refine ⟨tFineKept s.cfg.floatTfineKind (tFltSum adcT t1 t2 t3), ?_, fun h => by rw [h, tFineKept],
    fun h => by rw [h, tFineKept]⟩
  rw [exec_compTFlt, compTFlt_ok _ t1 t2 t3 ha]
  exact finishOp_ok hf

/-- Settles O54: with P1 = 0 the denominator is a bounded number times `f64(0)`, so the zero guard answers. -/
theorem zeroP1GivesPositiveZero : Obligations.ZeroP1GivesPositiveZero := by
  intro adcP tf c s hf hp1 htf
  rw [exec_compPFlt adcP _ c hf, compPFlt, if_pos (f64IsZero_pFltDenominator_of_p1 (tfineFValue_le htf) hp1)]
  rfl

/-- Settles O53: the operation has no fault, and its guard tests the bits below the sign. -/
theorem compPFltCompletes : Obligations.CompPFltCompletes := by
  intro adcP tf c s hf
  have hguard : f64IsZero (pFltDenominator tf c) = true ↔ (pFltDenominator tf c).toNat % 2 ^ 63 = 0 := beq_iff_eq
  rw [exec_compPFlt adcP tf c hf, compPFlt]
  simp only [hguard]
  rfl

end Sys2Proof.Machine
end

section
/-!
Faults (60_exceptions.md): what raising one does (R39, R243), that a quiescent block takes no instruction and no step (R243, R271),
what each check of command entry raises (R150, R244), and the pressure accessors whose COMPUTE faults (R172, R173).
-/

namespace Sys2Proof.Machine

variable {s : State} {f : FaultBit} {c : Byte} {i : Instr} {isInit : Bool} {start : State → State}

/-! ## Raising a fault -/

theorem faultIndex_lt (f : FaultBit) : faultIndex f < 8 := by cases f <;> decide

/-- A fault's mask is its own bit (R39). -/
theorem faultMask_getLsbD (f : FaultBit) (n : Nat) : (faultMask f).getLsbD n = decide (n = faultIndex f) := by
  have hmask : faultMask f = BitVec.twoPow 8 (faultIndex f) := rfl
  rw [hmask, BitVec.getLsbD_twoPow, decide_eq_true (faultIndex_lt f), Bool.true_and]
  exact decide_eq_decide.2 eq_comm

/-- A live block's first fault is the only bit of FAULTS (R243). -/
theorem raise_of_live (f : FaultBit) (hf : s.faults = 0) : s.raise f = { s with faults := faultMask f } := by
  simp [State.raise, hf]

/-- Raising a fault makes the block quiescent (R243). -/
theorem quiescent_raise (f : FaultBit) (hf : s.faults = 0) : (s.raise f).quiescent = true := by
  rw [raise_of_live f hf]
  cases f <;> rfl

/-! ## A quiescent block -/

/-- Every instruction asks first whether the block is live. -/
theorem exec_eq_whenLive (i : Instr) (s : State) : ∃ a, exec i s = whenLive a s := by
  cases i <;> exact ⟨_, rfl⟩

theorem exec_quiescent (i : Instr) (hf : s.faults ≠ 0) : exec i s = .fault .quiescent := by
  obtain ⟨a, ha⟩ := exec_eq_whenLive i s
  rw [ha, whenLive_quiescent hf]

/-- A step that is SEQ's, HOST's, a frame's or RESET's is none of a quiescent block (R243, R271). -/
theorem step_quiescent (hc : s.cfg.wf = true) (hf : s.faults ≠ 0)
    (hm : s.upNext = .seq ∨ (∃ c, s.upNext = .host c) ∨ (∃ b, s.upNext = .spi b) ∨ s.upNext = .reset) :
    step s = .fault .quiescent := by
  have hstep : step s = takeMove exec State.runSeq s.upNext s.moveTaken := stepUnder_of_wf hc
  have hf' : s.moveTaken.faults ≠ 0 := hf
  rw [hstep]
  rcases hm with hm | ⟨c, hm⟩ | ⟨b, hm⟩ | hm <;> rw [hm] <;> exact whenLive_quiescent hf'

/-! ## Command entry -/

/-- R150's first check: a code that does not decode (R245). -/
theorem step_host_illegal {e : DecodeError} (hc : s.cfg.wf = true) (hf : s.faults = 0) (hm : s.upNext = .host c)
    (hd : decodeHost c = .error e) : step s = .next (s.moveTaken.raise .illegalCmd) := by
  have hstep : step s = takeMove exec State.runSeq s.upNext s.moveTaken := stepUnder_of_wf hc
  rw [hstep, hm, takeMove, hd]
  exact whenLive_of hf

/-- R150's second check (R246). -/
theorem issue_busy (hf : s.faults = 0) (hb : s.busy = true) : issue c isInit start s = .next (s.raise .reentrant) := by
  rw [issue, whenLive_of hf, if_pos hb]

/-- R150's third check (R248). -/
theorem issue_init_not_uninit (hf : s.faults = 0) (hb : s.busy = false) (hs : s.state ≠ .uninit) :
    issue c true start s = .next (s.raise .reinit) := by
  simp [issue, whenLive_of hf, hb, hs]

/-- R150's fourth check (R247). -/
theorem issue_read_not_ready (hf : s.faults = 0) (hb : s.busy = false) (hs : s.state ≠ .ready) :
    issue c false start s = .next (s.raise .notReady) := by
  simp [issue, whenLive_of hf, hb, hs]

/-- Each of HOST's five commands is a command entry, INIT's under code 0x01 (R91, R150). -/
theorem exec_host_eq_issue (hd : decodeHost c = .ok i) :
    ∃ start, ∀ s, exec i s = issue c (decide (c = 0x01)) start s := by
  have hcode : encode i = some (.command c) := decodeHost_eq_ok_iff.1 hd
  rcases decodeHost_ok hd with rfl | rfl | rfl | rfl | rfl <;> cases hcode <;> exact ⟨_, fun _ => rfl⟩

/-! ## The pressure accessors at COMPUTE -/

theorem computeStep_pInt_unpaired (hc : s.cmd = 0x11) (hp : s.pairedI = false) :
    computeStep s = some (s.raise .unpairedPressure) := by
  simp [computeStep, computePInt, hc, hp]

theorem computeStep_pFlt_unpaired (hc : s.cmd = 0x21) (hp : s.pairedF = false) :
    computeStep s = some (s.raise .unpairedPressure) := by
  simp [computeStep, computePFlt, hc, hp]

theorem computeStep_pInt_error (hc : s.cmd = 0x11) (hp : s.pairedI = true)
    (h : compPInt s.cfg.pressureIntVariant s.cfg.overflowMode s.raw.adcP s.tfineI s.cal.pressure = .error f) :
    computeStep s = some (s.raise f) := by
  simp [computeStep, computePInt, hc, hp, h]

/-- A pressure accessor whose COMPUTE faults stops there with that one fault recorded (R172, R173, R243). -/
theorem issue_pressure_fault (ha : Admits .ready s) (hq : 1 ≤ s.quantum)
    (h : computeStep ((s.admitted c).atPhase .compute) = some (((s.admitted c).atPhase .compute).raise f)) :
    issue c false (State.atPhase .compute) s =
      .next { s with cmd := c, busy := true, phase := .compute, bus := .idle, faults := faultMask f } := by
  have hf : ((s.admitted c).atPhase .compute).faults = 0 := ha.1
  have hraised : issue c false (State.atPhase .compute) s = .next (((s.admitted c).atPhase .compute).raise f) :=
    issue_of_reaches (isInit := false) ha (commandReaches_computeStep hf rfl rfl h) hq (.inl (quiescent_raise f hf))
  exact hraised.trans (congrArg _ (raise_of_live f hf))

end Sys2Proof.Machine
end

section
/-! The statements of 60_exceptions.md, settled. -/

namespace Sys2Proof.Machine

/-- Settles O9: TICK's is a move that does not ask whether the block is live (`stepUnder_tick`). -/
theorem tickOnlyCounts : Obligations.TickOnlyCounts := fun _ hc hm => stepUnder_tick hc hm

/-- Settles O10: FAULTS is or'ed with a mask of one bit (`faultMask_getLsbD`). -/
theorem raiseSetsOneBit : Obligations.RaiseSetsOneBit := by
  intro f s
  refine ⟨rfl, fun n _ => ?_⟩
  rw [raise_faults, BitVec.getLsbD_or, faultMask_getLsbD]

/-- Settles O11: every instruction, and every move but the other agents', asks first whether the block is live. -/
theorem quiescentTakesNoStep : Obligations.QuiescentTakesNoStep := fun _ hf =>
  ⟨fun i => exec_quiescent i hf, fun hc hm => step_quiescent hc hf hm⟩

/-- Settles O12: such a code does not decode (R93), so decoding raises the fault before command entry. -/
theorem illegalCodeFaults : Obligations.IllegalCodeFaults := by
  intro s c hc hf hm h1 h2 h3 h4 h5
  rw [step_host_illegal hc hf hm (decodeHost_eq_illegal_iff.2 ⟨h1, h2, h3, h4, h5⟩)]
  exact congrArg _ (raise_of_live _ hf)

/-- Settles O13: each of the five commands is a command entry, whose check of BUSY comes first. -/
theorem reentrantFaults : Obligations.ReentrantFaults := by
  intro s c i hf hb hd
  obtain ⟨start, hexec⟩ := exec_host_eq_issue hd
  refine ⟨?_, rfl⟩
  rw [hexec, issue_busy hf hb]
  exact congrArg _ (raise_of_live _ hf)

/-- Settles O14: a command whose code is not INIT's is one that needs READY. -/
theorem notReadyFaults : Obligations.NotReadyFaults := by
  intro s c i hf hb hs hd hc
  obtain ⟨start, hexec⟩ := exec_host_eq_issue hd
  rw [hexec, decide_eq_false hc, issue_read_not_ready hf hb hs]
  exact congrArg _ (raise_of_live _ hf)

/-- Settles O15: command entry's check of UNINIT. -/
theorem reinitFaults : Obligations.ReinitFaults := fun _ hf hb hs =>
  (issue_init_not_uninit hf hb hs).trans (congrArg _ (raise_of_live _ hf))

/-- Settles O16: the micro-step at COMPUTE tests the pairing before it computes. -/
theorem unpairedPressureFaults : Obligations.UnpairedPressureFaults := fun _ ha hq =>
  ⟨fun hp => issue_pressure_fault ha hq (computeStep_pInt_unpaired rfl hp),
    fun hp => issue_pressure_fault ha hq (computeStep_pFlt_unpaired rfl hp)⟩

/-- Settles O17: the micro-step at COMPUTE raises the pressure operation's fault and writes no result. -/
theorem pressureOverflowFaults : Obligations.PressureOverflowFaults := fun _ ha hq hp h =>
  issue_pressure_fault ha hq (computeStep_pInt_error rfl hp h)

end Sys2Proof.Machine
end

section
/-!
The status view SV as a number (R40), and the initial state under RESET (R272).
-/

namespace Sys2Proof.Machine

/-- SV is the sum of its fields' codes, each weighted by its place (R40). -/
theorem sv_toNat (s : State) :
    s.sv.toNat = (stateCode s.state).toNat + 4 * (kindCode s.kind).toNat + 16 * s.busy.toNat + 32 * s.pairedI.toNat
      + 64 * s.pairedF.toNat := by
  simp only [State.sv, toNat_append_eq_add, BitVec.toNat_ofBool, BitVec.toNat_ofNat]
  omega

theorem sv_initial (p : Params) : (State.initial p).sv = 0x00 := by
  simp only [State.sv, State.initial]
  rfl

/-- A RESET step of an initial state draws TICKS and counts the draw, and changes nothing else (R270, R272). -/
theorem takeReset_initial (p : Params) :
    (State.initial p).takeReset = { State.initial p with ticks := Config.ticksAfterReset 1, draws := 2 } := rfl

end Sys2Proof.Machine
end

section
/-! The statement of 70_reset_and_hazards.md on the initial state, settled. -/

namespace Sys2Proof.Machine

/-- Settles O19: RESET writes the values of `State.initial` (`takeReset_initial`), and SV is the sum of its fields (`sv_toNat`). -/
theorem initialStateIsReset : Obligations.InitialStateIsReset := by
  obtain ⟨-, -, hwf⟩ := illFormedConfigurationsRefused
  refine ⟨rfl, rfl, hwf, sv_initial _, rfl, fun p => ⟨sv_initial p, ?_⟩, fun s => ?_⟩
  · rw [takeReset_initial]
    rfl
  · rw [sv_toNat]
    simp only [Bool.toNat, Bool.cond_eq_ite]
    cases s.state <;> cases s.kind <;> rfl

end Sys2Proof.Machine
end
